-- ==== Sys2Proof/Word.lean ====
section
/-! DEFINITION. The value types of the block: bytes, operation words, and the three-valued level of a line
or a register bit (spec/00_scope.md R8 to R10). -/

namespace Sys2Proof

/-- A `u8` (R9). -/
abbrev Byte := BitVec 8

/-- The 16-bit operation word `OW` (30_encoding.md R100). -/
abbrev OpWord := BitVec 16

/-- The level of a line or of one bit of the chain: 0, 1, or X, "no known value" (R10). No rule turns X into
0 or 1 (10_state.md R57). -/
inductive Level where
  | zero
  | one
  | x
  deriving DecidableEq, Repr

/-- The known level of a bit. -/
def Level.ofBool : Bool → Level
  | false => .zero
  | true => .one

end Sys2Proof
end

