-- ==== Sys2Proof/Config.lean ====
section
/-! DEFINITION. What an implementation fixes (spec/00_scope.md R6), as plain data, and the free values: constants
with no body, of which nothing can be proved, so that a theorem holds whatever they are. The default values of the
parameters are in Sys2Proof/Machine/Defaults.lean. -/

namespace Sys2Proof

/-- `P_SEG_TABLE`: the segment pattern of each decimal 0 to 9 (40_segment_encoder.md R143). Which tables a block may
have is `SegTable.admissible`. -/
structure SegTable where
  d0 : Byte
  d1 : Byte
  d2 : Byte
  d3 : Byte
  d4 : Byte
  d5 : Byte
  d6 : Byte
  d7 : Byte
  d8 : Byte
  d9 : Byte
  deriving DecidableEq, Repr

/-- `P_RTC_LAYOUT`: which byte of the time block holds which field (20_memory.md R71, 42_rtc.md R227). -/
inductive RtcLayout where
  | doc6
  | ds3231
  deriving DecidableEq, Repr

/-- `P_MASK_*`: the mask on each time byte before BCD decoding (42_rtc.md R226). -/
structure TimeMasks where
  sec : Byte
  min : Byte
  hour : Byte
  day : Byte
  month : Byte
  year : Byte
  deriving DecidableEq, Repr

/-- The widths the chain's chips need, in nanoseconds: data setup before a clock rise, clock pulse, latch pulse
(70_reset_and_hazards.md R323; log 31). -/
structure DeviceNeeds where
  setup : Nat
  high : Nat
  latch : Nat
  deriving DecidableEq, Repr

/-- The implementation parameters of 00_scope.md R6, and the needs of the chain's chips. The delays are lower bounds,
in nanoseconds (log 16); no rule but R323's depends on them (70_reset_and_hazards.md R320). Which configurations a
block may have is `Params.admissible`. -/
structure Params where
  segTable : SegTable
  nChips : Nat
  tInit : Nat
  tSetup : Nat
  tHigh : Nat
  tLatch : Nat
  needs : DeviceNeeds
  layout : RtcLayout
  masks : TimeMasks
  deriving DecidableEq, Repr

/-- `BusError`, the platform's transport error: an opaque type (60_exceptions.md R270). The token stands for
whatever the platform reports; no rule reads it (log 9). -/
structure BusError where
  token : Nat
  deriving DecidableEq, Repr

/-- FREE VALUE (log 6). Draw `k` of `DataRest` (41_shift_register.md R173): is DATA driven to 0? -/
opaque Config.freeDataRest (k : Nat) : Bool

/-- FREE VALUE (log 7). Draw `k` of an edge from X (10_state.md R58): is driving a line from X to 1 a rising
edge? -/
opaque Config.freeEdgeFromX (k : Nat) : Bool

/-- FREE VALUE (log 8). Draw `k` of `P_WDAY_WRITE`, the day-of-week byte written under `DS3231_7`
(42_rtc.md R242). -/
opaque Config.freeWeekday (k : Nat) : Byte

/-- FREE VALUE (log 5). The BUS oracle's answer to transaction draw `k` where no answer was given beforehand
(20_memory.md R81): `none` is Ok, `some e` is `Err(e)`. -/
opaque Config.freeBusError (k : Nat) : Option BusError

/-- FREE VALUE (log 5). Byte `i` of the BUS oracle's answer to transaction draw `k`, where none was given
beforehand (20_memory.md R81). -/
opaque Config.freeBusByte (k i : Nat) : Byte

end Sys2Proof
end

