-- ==== Sys2Proof/Machine/Defaults.lean ====
section
/-! DEFINITION. The values this hardware takes for its parameters and its fixed constants (spec/00_scope.md R6,
30_encoding.md R104), and which configurations a block may have. -/

namespace Sys2Proof.Machine

/-- The default digit table (40_segment_encoder.md R143; the spec's D4 for 2 to 7 and 9, log 2). -/
def defaultSegTable : SegTable where
  d0 := 0x5F#8
  d1 := 0x0C#8
  d2 := 0x9B#8
  d3 := 0x9E#8
  d4 := 0xCC#8
  d5 := 0xD6#8
  d6 := 0xD7#8
  d7 := 0x1C#8
  d8 := 0xDF#8
  d9 := 0xDE#8

/-- The default masks (42_rtc.md R226; log 21). -/
def defaultMasks : TimeMasks where
  sec := 0xFF#8
  min := 0xFF#8
  hour := 0x3F#8
  day := 0xFF#8
  month := 0x7F#8
  year := 0xFF#8

/-- The needs of a typical chain: tens of nanoseconds, so at most 100 (70_reset_and_hazards.md R323; PRESUMED, log 31). -/
def defaultNeeds : DeviceNeeds where
  setup := 100
  high := 100
  latch := 100

/-- The defaults of every parameter (00_scope.md R6; delays in nanoseconds from 70_reset_and_hazards.md R321,
log 16). -/
def defaultParams : Params where
  segTable := defaultSegTable
  nChips := 1
  tInit := 10000
  tSetup := 1000
  tHigh := 1000
  tLatch := 1000
  needs := defaultNeeds
  layout := .doc6
  masks := defaultMasks

/-- `RTC_ADDR`, the RTC's 7-bit device address (10_state.md R39). -/
def rtcAddr : BitVec 7 := 0x68#7

/-- `REG_TIME`, the first time register. -/
def regTime : Byte := 0x00#8

/-- `N_TIME_READ`. -/
def timeReadLen : Nat := 7

/-- `REG_STATUS`. -/
def regStatus : Byte := 0x0F#8

/-- `BUSY_BIT`. -/
def busyBit : Nat := 2

/-- `REG_TEMP`, the temperature's upper byte. -/
def regTemp : Byte := 0x11#8

/-- `N_TEMP_READ`. -/
def tempReadLen : Nat := 2

/-- `EPOCH`, the year added to the two-digit year (42_rtc.md R241). -/
def epoch : Nat := 2000

/-- The bit of a segment pattern that is the decimal point, as a byte (40_segment_encoder.md R141). -/
def dotMask : Byte := 0x20#8

end Sys2Proof.Machine

namespace Sys2Proof

/-! ## Which configurations a block may have -/

/-- `P_SEG_TABLE[0..9]` as a list (40_segment_encoder.md R143). -/
def SegTable.rows (t : SegTable) : List Byte :=
  [t.d0, t.d1, t.d2, t.d3, t.d4, t.d5, t.d6, t.d7, t.d8, t.d9]

/-- What every `P_SEG_TABLE` must keep (40_segment_encoder.md R144, 00_scope.md R6): rows 0, 1 and 8, which the source
fixes, and bit 5, the decimal point's, clear in every row. -/
def SegTable.admissible (t : SegTable) : Bool :=
  t.d0 == 0x5F#8 && t.d1 == 0x0C#8 && t.d8 == 0xDF#8 && t.rows.all fun r => !r.getLsbD 5

/-- No delay is shorter than the chips need (70_reset_and_hazards.md R323). -/
def Params.delaysSuffice (p : Params) : Bool :=
  decide (p.needs.setup ≤ p.tSetup) && decide (p.needs.high ≤ p.tHigh) && decide (p.needs.latch ≤ p.tLatch)

/-- A configuration a block may have: at least one chip (00_scope.md R6), a table as R144 asks, delays as R323 asks. -/
def Params.admissible (p : Params) : Bool :=
  decide (1 ≤ p.nChips) && p.segTable.admissible && p.delaysSuffice

end Sys2Proof
end

