-- ==== Sys2Proof/Syntax.lean ====
section
/-! DEFINITION. The seventeen operations as terms, and the value objects that travel with them
(spec/30_encoding.md R105, R106; 10_state.md R55). -/

namespace Sys2Proof

/-- `DateTime`, a record of non-negative integers (10_state.md R55). Its valid ranges are checked by
RTC.SET_DATETIME alone (42_rtc.md R242, R243). -/
structure DateTime where
  year : Nat
  month : Nat
  day : Nat
  hour : Nat
  minute : Nat
  second : Nat
  deriving DecidableEq, Repr

/-- The out-of-band operand presented beside an operation word (30_encoding.md R105). -/
inductive Oob where
  | absent
  | list (bytes : List Byte)
  | record (t : DateTime)
  deriving DecidableEq, Repr

/-- The operations, one constructor per row of opcode_table.json, with their operands (30_encoding.md R103,
R106). -/
inductive Instr where
  | segEncode (decimal : Byte) (dot on : Bool)
  | srInit
  | srPushByte (v : Byte)
  | srPushBytes (bytes : List Byte)
  | srTransfer
  | srPushByteAndTransfer (v : Byte)
  | srPushBytesAndTransfer (bytes : List Byte)
  | srSetOutputs (v : Byte)
  | srClearOutputs
  | srSetAllOutputs
  | rtcInit
  | rtcGetDatetime
  | rtcSetDatetime (t : DateTime)
  | rtcGetTemperature
  | rtcIsBusy
  | bcdDec (b : Byte)
  | bcdEnc (n : Byte)
  deriving DecidableEq, Repr

end Sys2Proof
end

