-- ==== Sys2Proof/Machine/Operands.lean ====
section
/-! DEFINITION. The pure functions of the operands: the segment encoder, BCD, the time block and the temperature
(spec/40_segment_encoder.md, 42_rtc.md). -/

namespace Sys2Proof.Machine

/-- `P_SEG_TABLE[decimal]`, for a decimal of 0 to 9; any other decimal selects the empty pattern
(40_segment_encoder.md R146). -/
def segPattern (t : SegTable) (decimal : Byte) : Byte :=
  match decimal.toNat with
  | 0 => t.d0
  | 1 => t.d1
  | 2 => t.d2
  | 3 => t.d3
  | 4 => t.d4
  | 5 => t.d5
  | 6 => t.d6
  | 7 => t.d7
  | 8 => t.d8
  | 9 => t.d9
  | _ => 0x00#8

/-- SEG.ENCODE's value (R146): the dot is applied whatever `on` is (90_conflicts.md C1). -/
def segValue (t : SegTable) (decimal : Byte) (dot on : Bool) : Byte :=
  let segs := if on then segPattern t decimal else 0x00#8
  if dot then segs ||| dotMask else segs

/-- `BCD.DEC` (42_rtc.md R221), 0 to 165; a nibble above 9 counts as its binary value (R224). -/
def bcdDecode (b : Byte) : Nat :=
  ((b.toNat &&& 0xF0) >>> 4) * 10 + (b.toNat &&& 0x0F)

/-- `BCD.ENC` (42_rtc.md R222), for n up to 99. -/
def bcdEncode (n : Nat) : Byte :=
  BitVec.ofNat 8 (((n / 10) <<< 4) ||| (n % 10))

/-- `BCD.ENC`'s operand has a meaning (R225). -/
def bcdInRange (n : Nat) : Bool := decide (n ≤ 99)

/-- `DecField` (R226). -/
def decField (b mask : Byte) : Nat := bcdDecode (b &&& mask)

/-- The index table of R227: where each field of the time block stands. -/
structure FieldIndex where
  second : Nat
  minute : Nat
  hour : Nat
  day : Nat
  month : Nat
  year : Nat
  deriving DecidableEq, Repr

/-- R227. -/
def fieldIndex : RtcLayout → FieldIndex
  | .doc6 => ⟨0, 1, 2, 3, 4, 5⟩
  | .ds3231 => ⟨0, 1, 2, 4, 5, 6⟩

/-- `b[k]` of the bytes of one answer. A read's answer always has the bytes its decoder asks for
(`fitBytes_length`), so the 0 past the end is never a result. -/
def byteAt (bytes : List Byte) (k : Nat) : Byte := bytes.getD k 0x00#8

/-- The fields of RTC.GET_DATETIME (R240, R241), unchecked (R243). -/
def decodeTime (p : Params) (b : List Byte) : DateTime :=
  let ix := fieldIndex p.layout
  { year := epoch + decField (byteAt b ix.year) p.masks.year
    month := decField (byteAt b ix.month) p.masks.month
    day := decField (byteAt b ix.day) p.masks.day
    hour := decField (byteAt b ix.hour) p.masks.hour
    minute := decField (byteAt b ix.minute) p.masks.min
    second := decField (byteAt b ix.second) p.masks.sec }

/-- The range check of RTC.SET_DATETIME (R242). The day is checked against 1 to 31 only. -/
def dateTimeInRange (t : DateTime) : Bool :=
  decide (2000 ≤ t.year ∧ t.year ≤ 2099 ∧ 1 ≤ t.month ∧ t.month ≤ 12 ∧ 1 ≤ t.day ∧ t.day ≤ 31
    ∧ t.hour ≤ 23 ∧ t.minute ≤ 59 ∧ t.second ≤ 59)

/-- The bytes RTC.SET_DATETIME writes from register 0x00 on (R242), with the drawn day-of-week byte under
`DS3231_7`. -/
def timeBytes (layout : RtcLayout) (weekday : Byte) (t : DateTime) : List Byte :=
  let s := bcdEncode t.second
  let mi := bcdEncode t.minute
  let h := bcdEncode t.hour
  let d := bcdEncode t.day
  let mo := bcdEncode t.month
  let y := bcdEncode (t.year - epoch)
  match layout with
  | .doc6 => [s, mi, h, d, mo, y]
  | .ds3231 => [s, mi, h, weekday, d, mo, y]

/-- RTC.GET_TEMPERATURE's count of quarter degrees (R245): the 10-bit pattern `{hi, lo[7:6]}` read as two's
complement. -/
def decodeTemperature (b : List Byte) : Int :=
  ((byteAt b 0) ++ (byteAt b 1).extractLsb' 6 2 : BitVec 10).toInt

end Sys2Proof.Machine
end

