-- ==== Sys2Proof/Decode.lean ====
section
/-! DEFINITION. The decoder of operation words, total on every word and out-of-band operand
(spec/30_encoding.md R100 to R107, R115), and the encoder. -/

namespace Sys2Proof

/-- The five formats (R101), each with the constructor its operands go to. -/
inductive Format where
  | seg (mk : Byte → Bool → Bool → Instr)
  | none (i : Instr)
  | imm (mk : Byte → Instr)
  | list (mk : List Byte → Instr)
  | record (mk : DateTime → Instr)

/-- One row of the opcode map (R106): a word w selects it when `w & mask = value`. -/
structure Row where
  format : Format
  value : OpWord
  mask : OpWord

/-- Why a presented operation is refused before it starts (R107). -/
inductive DecodeRefusal where
  | reservedEncoding
  | missingOperand
  | extraOperand
  deriving DecidableEq, Repr

/-- What decoding answers: an operation, or a refusal by name. -/
inductive Decoded where
  | ok (i : Instr)
  | refused (why : DecodeRefusal)
  deriving DecidableEq, Repr

/-- The complete opcode map (R106), in its order. -/
def opcodeTable : List Row :=
  [ ⟨.seg .segEncode, 0x0000#16, 0xFC00#16⟩,
    ⟨.none .srInit, 0x1000#16, 0xFFFF#16⟩,
    ⟨.imm .srPushByte, 0x1100#16, 0xFF00#16⟩,
    ⟨.list .srPushBytes, 0x1200#16, 0xFFFF#16⟩,
    ⟨.none .srTransfer, 0x1300#16, 0xFFFF#16⟩,
    ⟨.imm .srPushByteAndTransfer, 0x1400#16, 0xFF00#16⟩,
    ⟨.list .srPushBytesAndTransfer, 0x1500#16, 0xFFFF#16⟩,
    ⟨.imm .srSetOutputs, 0x1600#16, 0xFF00#16⟩,
    ⟨.none .srClearOutputs, 0x1700#16, 0xFFFF#16⟩,
    ⟨.none .srSetAllOutputs, 0x1800#16, 0xFFFF#16⟩,
    ⟨.none .rtcInit, 0x2000#16, 0xFFFF#16⟩,
    ⟨.none .rtcGetDatetime, 0x2100#16, 0xFFFF#16⟩,
    ⟨.record .rtcSetDatetime, 0x2200#16, 0xFFFF#16⟩,
    ⟨.none .rtcGetTemperature, 0x2300#16, 0xFFFF#16⟩,
    ⟨.none .rtcIsBusy, 0x2400#16, 0xFFFF#16⟩,
    ⟨.imm .bcdDec, 0x3000#16, 0xFF00#16⟩,
    ⟨.imm .bcdEnc, 0x3100#16, 0xFF00#16⟩ ]

/-- The word selects the row (R106). -/
def Row.selects (r : Row) (w : OpWord) : Bool := (w &&& r.mask) == r.value

/-- `OW[7:0]`, the immediate byte (R100, R103). -/
def immByte (w : OpWord) : Byte := w.extractLsb' 0 8

/-- `OW[15:12]`, the unit field (R102). -/
def unitField (w : OpWord) : BitVec 4 := w.extractLsb' 12 4

/-- `OW[11:8]`, the function field (R100). -/
def fnField (w : OpWord) : BitVec 4 := w.extractLsb' 8 4

/-- The operands of a selected row (R103, R105): the SEG form looks at no out-of-band operand (R107, log 22). -/
def Format.operands (f : Format) (w : OpWord) (oob : Oob) : Decoded :=
  match f, oob with
  | .seg mk, _ => .ok (mk (immByte w) (w.getLsbD 8) (w.getLsbD 9))
  | .none i, .absent => .ok i
  | .none _, _ => .refused .extraOperand
  | .imm mk, .absent => .ok (mk (immByte w))
  | .imm _, _ => .refused .extraOperand
  | .list mk, .list bytes => .ok (mk bytes)
  | .list _, _ => .refused .missingOperand
  | .record mk, .record t => .ok (mk t)
  | .record _, _ => .refused .missingOperand

/-- The row a word selects, if any. -/
def selectRow (w : OpWord) : Option Row := opcodeTable.find? (·.selects w)

/-- The decoding procedure (R107). -/
def decode (w : OpWord) (oob : Oob) : Decoded :=
  match selectRow w with
  | some r => r.format.operands w oob
  | none => .refused .reservedEncoding

/-- A word of unit and function `hi` and immediate byte `lo` (R100). -/
def opWord (hi lo : Byte) : OpWord := hi ++ lo

/-- The operation word of an operation (R101, R106). -/
def Instr.word : Instr → OpWord
  | .segEncode decimal dot on => 0#6 ++ BitVec.ofBool on ++ BitVec.ofBool dot ++ decimal
  | .srInit => 0x1000#16
  | .srPushByte v => opWord 0x11#8 v
  | .srPushBytes _ => 0x1200#16
  | .srTransfer => 0x1300#16
  | .srPushByteAndTransfer v => opWord 0x14#8 v
  | .srPushBytesAndTransfer _ => 0x1500#16
  | .srSetOutputs v => opWord 0x16#8 v
  | .srClearOutputs => 0x1700#16
  | .srSetAllOutputs => 0x1800#16
  | .rtcInit => 0x2000#16
  | .rtcGetDatetime => 0x2100#16
  | .rtcSetDatetime _ => 0x2200#16
  | .rtcGetTemperature => 0x2300#16
  | .rtcIsBusy => 0x2400#16
  | .bcdDec b => opWord 0x30#8 b
  | .bcdEnc n => opWord 0x31#8 n

/-- The out-of-band operand of an operation (R105). -/
def Instr.oob : Instr → Oob
  | .srPushBytes bytes => .list bytes
  | .srPushBytesAndTransfer bytes => .list bytes
  | .rtcSetDatetime t => .record t
  | .segEncode _ _ _ | .srInit | .srPushByte _ | .srTransfer | .srPushByteAndTransfer _ | .srSetOutputs _
  | .srClearOutputs | .srSetAllOutputs | .rtcInit | .rtcGetDatetime | .rtcGetTemperature | .rtcIsBusy | .bcdDec _
  | .bcdEnc _ => .absent

/-- The words and out-of-band operand that present an operation. -/
def encode (i : Instr) : OpWord × Oob := (i.word, i.oob)

/-- The out-of-band operand that goes with a word taken from the opcode table alone, which gives that operand no
bits: the empty list for a list form, the earliest date RTC.SET_DATETIME accepts for its record form (log 15). -/
def leastOob (w : OpWord) : Oob :=
  match selectRow w with
  | some ⟨.list _, _, _⟩ => .list []
  | some ⟨.record _, _, _⟩ => .record ⟨2000, 1, 1, 0, 0, 0⟩
  | _ => .absent

/-- The operation word of the low `nbits` bits of a table row's word. -/
def tableWord (nbits w : Nat) : OpWord := BitVec.ofNat 16 (w % 2 ^ nbits)

/-- The operation the decoder reads from a table row's word. -/
def decodeTableWord (nbits w : Nat) : Option Instr :=
  match decode (tableWord nbits w) (leastOob (tableWord nbits w)) with
  | .ok i => some i
  | .refused _ => none

end Sys2Proof
end

