-- ==== Sys2Proof/Machine/State.lean ====
section
/-! DEFINITION. The state of the block and of the devices it drives, as plain data, and its power-up value
(spec/10_state.md). -/

namespace Sys2Proof.Machine

/-- The three output lines (R30). -/
inductive Line where
  | clk
  | latch
  | data
  deriving DecidableEq, Repr

/-- The levels of the three lines (R38). -/
structure Lines where
  clk : Level
  latch : Level
  data : Level
  deriving DecidableEq, Repr

/-- The SR sequencer position `sr_pc` (R37): the suspension point where the SR unit waits, or IDLE. -/
inductive SrPc where
  | idle
  | sInit
  | sSetup (j : Nat) (i : Fin 8)
  | sHigh (j : Nat) (i : Fin 8)
  | sLatch
  deriving DecidableEq, Repr

/-- Which SR operation is in progress (R37). -/
inductive SrOp where
  | init
  | pushByte
  | pushBytes
  | transfer
  | pushByteAndTransfer
  | pushBytesAndTransfer
  | setOutputs
  | clearOutputs
  | setAllOutputs
  deriving DecidableEq, Repr

/-- The kinds of `Delay` (R40). -/
inductive DelayKind where
  | init
  | setup
  | high
  | latch
  deriving DecidableEq, Repr

/-- The outcome of a combined write-then-read transaction (R40, 20_memory.md R78). -/
inductive ReadReply where
  | ok (bytes : List Byte)
  | err (e : BusError)
  deriving DecidableEq, Repr

/-- The outcome of a write transaction (R40, 20_memory.md R79). -/
inductive WriteReply where
  | ok
  | err (e : BusError)
  deriving DecidableEq, Repr

/-- One externally visible action (R40). -/
inductive Event where
  | lineSet (l : Line) (v : Bool)
  | delay (kind : DelayKind) (t : Nat)
  | busWR (addr : BitVec 7) (w : List Byte) (n : Nat) (outcome : ReadReply)
  | busW (addr : BitVec 7) (w : List Byte) (outcome : WriteReply)
  | cancel (p : SrPc)
  deriving DecidableEq, Repr

/-- The set `faults` (R42): which of the two fault bits are set. -/
structure FaultBits where
  srNotInitialised : Bool
  concurrentCall : Bool
  deriving DecidableEq, Repr

/-- A result value (R61). -/
inductive Result where
  /-- SEG.ENCODE, BCD.DEC, BCD.ENC. -/
  | u8 (v : Byte)
  /-- The SR operations: no value. -/
  | unit
  /-- RTC.INIT and RTC.IS_BUSY. -/
  | bool (b : Bool)
  /-- RTC.GET_DATETIME. -/
  | dateTime (t : DateTime)
  /-- RTC.SET_DATETIME's `Ok`. -/
  | written
  /-- RTC.GET_TEMPERATURE, in quarter degrees. -/
  | quarterDegrees (q : Int)
  deriving DecidableEq, Repr

/-- Which operand a refusal of code 5 is about (60_exceptions.md R272). -/
inductive OperandRefusal where
  | missingOperand (oob : Oob)
  | extraOperand (oob : Oob)
  | bcdRange (n : Byte)
  | datetimeRange (t : DateTime)
  deriving DecidableEq, Repr

/-- What one operation reports to its caller: the outcome codes 0 to 6 of 60_exceptions.md R272, with the
information each records. -/
inductive OpOutcome where
  | ok (r : Result)
  | bus (e : BusError)
  | srNotInitialised (w : OpWord)
  | concurrentCall (w : OpWord) (p : SrPc)
  | refusedReservedEncoding (w : OpWord)
  | refusedOperand (w : OpWord) (why : OperandRefusal)
  | cancelled (p : SrPc)
  deriving DecidableEq, Repr

/-- One thing the HOST or the TIMER does (R59, 00_scope.md R15; log 3). -/
inductive HostAct where
  /-- The HOST presents an operation at once, whatever is in progress. -/
  | call (w : OpWord) (oob : Oob)
  /-- The HOST cancels the suspended SR operation (60_exceptions.md R280). -/
  | cancel
  /-- The TIMER ends the delay the SR unit waits in. -/
  | elapse
  /-- The HOST does nothing until the SR unit is idle, as a caller that serializes its calls. -/
  | await
  deriving DecidableEq, Repr

/-- An answer the BUS oracle will give (20_memory.md R81): to a read, `ok bytes`, of as many bytes as the
transaction asks for (log 5); to a write, any `ok` is Ok. -/
inductive BusAnswer where
  | ok (bytes : List Byte)
  | err (e : BusError)
  deriving DecidableEq, Repr

/-- The machine: the SR driver (R38), the chain it drives (R47), the history (R40), the error marks (R42, R44),
what the caller has been told (R61), the parameters (00_scope.md R6), the inputs to come, and the count of free
values drawn. Entry `p` of `shift` and of `store` is `SHIFT[p]` and `STORE[p]`. -/
structure State where
  params : Params
  lines : Lines
  srReady : Bool
  srPc : SrPc
  srOp : Option SrOp
  srBytes : List Byte
  shift : List Level
  store : List Level
  hist : List Event
  faults : FaultBits
  refused : Bool
  outcomes : List OpOutcome
  host : List HostAct
  bus : List BusAnswer
  draws : Nat
  deriving DecidableEq, Repr

/-- Why the machine stops with a fault. The spec's own fault bits are no such stop: they are set in `State.faults`
and the machine goes on (log 10). -/
inductive Fault where
  /-- Raised by the SR sequencer (`srResume`) at a position `S_HIGH(j,i)` whose byte j the operand list does not
  have, or with no operation in progress. Safe: no run from reset reaches such a state, and the spec gives it no meaning (log 14). -/
  | sequencerPosition
  deriving DecidableEq, Repr

/-- Why the machine gives an instruction no meaning. The spec's own refusals are no such stop: they set
`State.refused` and the machine goes on (log 10). -/
inductive Refusal where
  /-- Raised by no arm of `exec`: every operation has its meaning. Safe. -/
  | notModelled (mnemonic : String)
  deriving DecidableEq, Repr

/-- The power-up state of a block built with parameters `p` (R56). -/
def State.powerUp (p : Params) : State where
  params := p
  lines := ⟨.x, .x, .x⟩
  srReady := false
  srPc := .idle
  srOp := none
  srBytes := []
  shift := List.replicate (8 * p.nChips) .x
  store := List.replicate (8 * p.nChips) .x
  hist := []
  faults := ⟨false, false⟩
  refused := false
  outcomes := []
  host := []
  bus := []
  draws := 0

/-- The machine right after reset, which is power-up (R35, R56), with the parameters' default values. -/
def State.reset : State := State.powerUp defaultParams

end Sys2Proof.Machine
end

