-- ==== Sys2Proof/Machine/Flags.lean ====
section
/-! DEFINITION. The block has no status flags of its own (spec/10_state.md R46). What stands in their place: the
fault bits and the refusal mark (R42, R44), and the chip's busy flag as RTC.IS_BUSY reads it (42_rtc.md R246). -/

namespace Sys2Proof.Machine

/-- Set the fault bit SR_NOT_INITIALISED (R42). No step clears it. -/
def State.setNotInitialised (s : State) : State :=
  { s with faults := { s.faults with srNotInitialised := true } }

/-- Set the fault bit CONCURRENT_CALL (R42). No step clears it. -/
def State.setConcurrent (s : State) : State :=
  { s with faults := { s.faults with concurrentCall := true } }

/-- Set the refusal mark (R44). No step clears it. -/
def State.setRefused (s : State) : State := { s with refused := true }

/-- The busy flag, bit 2 of the status byte (R246); every other bit is ignored. -/
def busyFlag (status : Byte) : Bool := status.getLsbD busyBit

end Sys2Proof.Machine
end

