-- ==== Sys2Proof/Machine/Ops.lean ====
section
/-! DEFINITION. The shared operations over the state: driving a line, with the chain's reaction; delays; results,
faults and refusals; bus transactions (spec/00_scope.md R11). The block has no memory of its own (20_memory.md
R70) and takes no traps (60_exceptions.md R284): raising a fault bit, a refusal or a bus error is what it has
instead. -/

namespace Sys2Proof.Machine

/-! ## Building a block -/

/-- The power-up state of a block of configuration `p` (70_reset_and_hazards.md R303). A configuration outside the spec
is refused: no block is built with it (93_implementation_defined.md U25; 40_segment_encoder.md R144). -/
def State.configure (p : Params) : Option State := if p.admissible then some (State.powerUp p) else none

/-! ## Plain updates -/

/-- Append an event to the history (10_state.md R40). -/
def State.record (s : State) (e : Event) : State := { s with hist := s.hist ++ [e] }

/-- Report an outcome to the caller (00_scope.md R11 `return`, 60_exceptions.md R272). -/
def State.deliver (s : State) (o : OpOutcome) : State := { s with outcomes := s.outcomes ++ [o] }

/-- One more free value is drawn. -/
def State.draw (s : State) : State := { s with draws := s.draws + 1 }

/-- Set `sr_ready` (10_state.md R38). -/
def State.setReady (s : State) (b : Bool) : State := { s with srReady := b }

/-- `pc <- p` (00_scope.md R11). -/
def State.goTo (s : State) (p : SrPc) : State := { s with srPc := p }

/-- Keep the operation and its operand bytes beside `sr_pc` (10_state.md R37). -/
def State.begin (s : State) (op : SrOp) (bytes : List Byte) : State :=
  { s with srOp := some op, srBytes := bytes }

/-- `sr_pc <- IDLE`; there is then no current operation and no operand list (log 12). -/
def State.goIdle (s : State) : State := { s with srPc := .idle, srOp := none, srBytes := [] }

/-- The HOST's list without its first item. -/
def State.popHost (s : State) : State := { s with host := s.host.tail }

/-! ## Lines and the chain -/

/-- `line[l]` (00_scope.md R11). -/
def Lines.get (ls : Lines) : Line → Level
  | .clk => ls.clk
  | .latch => ls.latch
  | .data => ls.data

/-- The lines with `l` at level `v`. -/
def Lines.set (ls : Lines) (l : Line) (v : Level) : Lines :=
  match l with
  | .clk => { ls with clk := v }
  | .latch => { ls with latch := v }
  | .data => { ls with data := v }

/-- Put a line at a level. -/
def State.setLevel (s : State) (l : Line) (v : Level) : State := { s with lines := s.lines.set l v }

/-- Driving a line at `old` to 1 is a rising edge from 0 (00_scope.md R13), and from X it may or may not be one:
draw `k` (10_state.md R58). -/
def isRise (old : Level) (k : Nat) : Bool :=
  match old with
  | .zero => true
  | .one => false
  | .x => Config.freeEdgeFromX k

/-- The count of draws after an edge from `old` to 1: an edge from X takes one (10_state.md R58). -/
def edgeDraws (old : Level) (k : Nat) : Nat :=
  match old with
  | .zero => k
  | .one => k
  | .x => k + 1

/-- The new content of the shift stage of `n` chips after a clock edge with DATA at `d`:
`trunc_8N((SHIFT << 1) | line[DATA])` (10_state.md R52). -/
def shiftedIn (n : Nat) (d : Level) (shift : List Level) : List Level := (d :: shift).take (8 * n)

/-- `SRDEV` at a rising edge of `l` (10_state.md R52). -/
def State.srdevRise (s : State) (l : Line) : State :=
  match l with
  | .clk => { s with shift := shiftedIn s.params.nChips s.lines.data s.shift }
  | .latch => { s with store := s.shift }
  | .data => s

/-- `line[l] <- 0` (00_scope.md R11): recorded, and at most a falling edge, to which the chain does not react
(10_state.md R52). -/
def State.driveLow (s : State) (l : Line) : State :=
  (s.setLevel l .zero).record (.lineSet l false)

/-- `line[l] <- 1` (00_scope.md R11): recorded, and the chain reacts if it is a rising edge. An edge from X is
drawn (10_state.md R58). -/
def State.driveHigh (s : State) (l : Line) : State :=
  let s' := { (s.setLevel l .one).record (.lineSet l true) with draws := edgeDraws (s.lines.get l) s.draws }
  if isRise (s.lines.get l) s.draws then s'.srdevRise l else s'

/-- `line[l] <- v` (00_scope.md R11). -/
def State.drive (s : State) (l : Line) (v : Bool) : State :=
  match v with
  | false => s.driveLow l
  | true => s.driveHigh l

/-- The lower bound of a delay (00_scope.md R6). -/
def delayTime (p : Params) : DelayKind → Nat
  | .init => p.tInit
  | .setup => p.tSetup
  | .high => p.tHigh
  | .latch => p.tLatch

/-- `Delay(kind, T)` at the suspension point `p` (00_scope.md R11): recorded, and the sequencer waits at `p`. -/
def State.suspend (s : State) (kind : DelayKind) (p : SrPc) : State :=
  (s.record (.delay kind (delayTime s.params kind))).goTo p

/-! ## Faults, refusals, cancellation -/

/-- `fault SR_NOT_INITIALISED` (41_shift_register.md R171): the bit, its report with the operation word, and
nothing else (10_state.md R43). -/
def State.faultNotInitialised (s : State) (w : OpWord) : State :=
  s.setNotInitialised.deliver (.srNotInitialised w)

/-- `fault CONCURRENT_CALL` (60_exceptions.md R276): the bit, its report with the operation word and `sr_pc`, and
nothing else (10_state.md R43). -/
def State.faultConcurrent (s : State) (w : OpWord) : State :=
  s.setConcurrent.deliver (.concurrentCall w s.srPc)

/-- A refusal (60_exceptions.md R277): the mark, its report, and nothing else (10_state.md R44). -/
def State.refuse (s : State) (o : OpOutcome) : State := s.setRefused.deliver o

/-- What a decode refusal reports (60_exceptions.md R272). -/
def refusalOutcome (w : OpWord) (oob : Oob) : DecodeRefusal → OpOutcome
  | .reservedEncoding => .refusedReservedEncoding w
  | .missingOperand => .refusedOperand w (.missingOperand oob)
  | .extraOperand => .refusedOperand w (.extraOperand oob)

/-- The HOST cancels the operation at `sr_pc` (60_exceptions.md R280): `Cancel(sr_pc)` is recorded, the position
becomes IDLE, the lines keep their levels, no value is returned. With nothing suspended there is nothing to
cancel (R279; log 18). -/
def State.cancelSr (s : State) : State :=
  if s.srPc = .idle then s
  else ((s.record (.cancel s.srPc)).deliver (.cancelled s.srPc)).goIdle

/-! ## Bus transactions -/

/-- Exactly `n` bytes: those of `bytes`, and free values for any it lacks (20_memory.md R81; log 5). -/
def fitBytes (n : Nat) (bytes : List Byte) (k : Nat) : List Byte :=
  (List.range n).map fun i => bytes.getD i (Config.freeBusByte k i)

/-- The oracle's answer to the next transaction (20_memory.md R81): the one given beforehand, else a free one. -/
def State.nextAnswer (s : State) : BusAnswer :=
  match s.bus with
  | a :: _ => a
  | [] =>
    match Config.freeBusError s.draws with
    | some e => .err e
    | none => .ok []

/-- The oracle's answer as the outcome of a read of `n` bytes. -/
def State.readReply (s : State) (n : Nat) : ReadReply :=
  match s.nextAnswer with
  | .ok bytes => .ok (fitBytes n bytes s.draws)
  | .err e => .err e

/-- The oracle's answer as the outcome of a write. -/
def State.writeReply (s : State) : WriteReply :=
  match s.nextAnswer with
  | .ok _ => .ok
  | .err e => .err e

/-- One answer of the oracle is used up. -/
def State.takeAnswer (s : State) : State := { s with bus := s.bus.tail }.draw

/-- `MemRead(reg, n)` with outcome `r` (20_memory.md R78): one combined write-then-read transaction. -/
def State.memRead (s : State) (reg : Byte) (n : Nat) : State :=
  s.takeAnswer.record (.busWR rtcAddr [reg] n (s.readReply n))

/-- `MemWrite(reg, n, bytes)` (20_memory.md R79): one write transaction. -/
def State.memWrite (s : State) (reg : Byte) (bytes : List Byte) : State :=
  s.takeAnswer.record (.busW rtcAddr (reg :: bytes) s.writeReply)

/-- What an operation reports of a read whose bytes mean `f bytes`: `raise BusFail(e)` on an error, once, with no
retry (60_exceptions.md R271). -/
def readOutcome (f : List Byte → Result) : ReadReply → OpOutcome
  | .ok bytes => .ok (f bytes)
  | .err e => .bus e

/-- What RTC.SET_DATETIME reports of its write (60_exceptions.md R271). -/
def writeOutcome : WriteReply → OpOutcome
  | .ok => .ok .written
  | .err e => .bus e

end Sys2Proof.Machine
end

