-- ==== Sys2Proof/Machine/Bcd.lean ====
section
/-! DEFINITION. The BCD conversions (spec/42_rtc.md R220 to R225). -/

namespace Sys2Proof.Machine

/-- BCD.DEC (R221): a pure value, no event, no validation (R224). -/
def execBcdDec (b : Byte) (s : State) : Host.Outcome State Fault Refusal :=
  .next (s.deliver (.ok (.u8 (BitVec.ofNat 8 (bcdDecode b)))))

/-- BCD.ENC (R222), refused above 99 (R225). -/
def execBcdEnc (n : Byte) (s : State) : Host.Outcome State Fault Refusal :=
  .next (if bcdInRange n.toNat then s.deliver (.ok (.u8 (bcdEncode n.toNat)))
    else s.refuse (.refusedOperand (Instr.bcdEnc n).word (.bcdRange n)))

end Sys2Proof.Machine
end

