-- ==== Sys2Proof/Machine/Rtc.lean ====
section
/-! DEFINITION. The Real-Time-Clock driver (spec/42_rtc.md R230 to R249). Each operation is one step with at most
one bus transaction. The concurrency check of 60_exceptions.md R276 cannot fire for it: no RTC operation is ever in
progress when another is presented. -/

namespace Sys2Proof.Machine

/-- RTC.INIT's result (R230): did the read succeed? -/
def probeOutcome : ReadReply → OpOutcome
  | .ok _ => .ok (.bool true)
  | .err _ => .ok (.bool false)

/-- RTC.INIT (R230): the transaction of RTC.GET_DATETIME as a connectivity probe. -/
def execRtcInit (s : State) : Host.Outcome State Fault Refusal :=
  .next ((s.memRead regTime timeReadLen).deliver (probeOutcome (s.readReply timeReadLen)))

/-- RTC.GET_DATETIME (R240). -/
def execRtcGetDatetime (s : State) : Host.Outcome State Fault Refusal :=
  .next ((s.memRead regTime timeReadLen).deliver
    (readOutcome (fun b => .dateTime (decodeTime s.params b)) (s.readReply timeReadLen)))

/-- RTC.SET_DATETIME (R242): refused with no event where a field is out of range, else one plain write. -/
def execRtcSetDatetime (t : DateTime) (s : State) : Host.Outcome State Fault Refusal :=
  .next (if dateTimeInRange t then
      (s.memWrite regTime (timeBytes s.params.layout (Config.freeWeekday s.draws) t)).deliver
        (writeOutcome s.writeReply)
    else s.refuse (.refusedOperand (Instr.rtcSetDatetime t).word (.datetimeRange t)))

/-- RTC.GET_TEMPERATURE (R245). -/
def execRtcGetTemperature (s : State) : Host.Outcome State Fault Refusal :=
  .next ((s.memRead regTemp tempReadLen).deliver
    (readOutcome (fun b => .quarterDegrees (decodeTemperature b)) (s.readReply tempReadLen)))

/-- RTC.IS_BUSY (R246). -/
def execRtcIsBusy (s : State) : Host.Outcome State Fault Refusal :=
  .next ((s.memRead regStatus 1).deliver
    (readOutcome (fun b => .bool (busyFlag (byteAt b 0))) (s.readReply 1)))

end Sys2Proof.Machine
end

