-- ==== Sys2Proof/Machine/Segment.lean ====
section
/-! DEFINITION. The Segment Encoder (spec/40_segment_encoder.md). -/

namespace Sys2Proof.Machine

/-- SEG.ENCODE (R146): a pure value, no event. -/
def execSegEncode (decimal : Byte) (dot on : Bool) (s : State) : Host.Outcome State Fault Refusal :=
  .next (s.deliver (.ok (.u8 (segValue s.params.segTable decimal dot on))))

end Sys2Proof.Machine
end

