-- ==== Sys2Proof/Machine/ShiftRegister.lean ====
section
/-! DEFINITION. The Shift-Register Output Driver (spec/41_shift_register.md): admission, the sequencer's run from
one suspension point to the next (R183), and the nine operations. -/

namespace Sys2Proof.Machine

/-- Does a latch follow the push? (R177 to R182) -/
def SrOp.latches : SrOp → Bool
  | .init | .pushByte | .pushBytes => false
  | .transfer | .pushByteAndTransfer | .pushBytesAndTransfer | .setOutputs | .clearOutputs | .setAllOutputs => true

/-! ## Shared routines -/

/-- `line[DATA] <- v[i]; Delay(SETUP)` (R172), bit `i` of byte `j`. -/
def State.dataSetup (s : State) (j : Nat) (i : Fin 8) (v : Byte) : State :=
  (s.drive .data (v.getLsbD i)).suspend .setup (.sSetup j i)

/-- `DataRest()` (R173), a draw: DATA is left as it is, or driven to 0. -/
def State.dataRest (s : State) : State :=
  if Config.freeDataRest s.draws then s.draw.driveLow .data else s.draw

/-- The operation returns: `sr_pc` is IDLE and the caller gets unit (R61). -/
def State.srReturn (s : State) : State := s.goIdle.deliver (.ok .unit)

/-- The rising half of `Latch()` (R174). -/
def State.latchUp (s : State) : State := (s.driveHigh .latch).suspend .latch .sLatch

/-- After the last pushed bit: the latch of the transfer forms, or the return (R175 to R182). -/
def State.afterPush (s : State) (op : SrOp) : State := if op.latches then s.latchUp else s.srReturn

/-- SR.INIT up to its settle delay (R170). -/
def State.initStart (s : State) : State :=
  let s := (s.begin .init []).setReady false
  (((s.driveLow .clk).driveLow .latch).driveLow .data).suspend .init .sInit

/-- A push form with operand list `bytes` up to its first suspension point (R172, R176, R177): the first bit of
the first byte, or with no byte what follows the push. SR.TRANSFER is the latching form that pushes nothing. -/
def State.pushStart (s : State) (op : SrOp) (bytes : List Byte) : State :=
  match bytes with
  | v :: _ => (s.begin op bytes).dataSetup 0 7 v
  | [] => (s.begin op []).afterPush op

/-- An SR operation as presented (60_exceptions.md R278): the concurrency check (R276), the initialisation check
of all but SR.INIT (R171), then its first run. -/
def srStart (i : Instr) (op : SrOp) (bytes : List Byte) (s : State) : Host.Outcome State Fault Refusal :=
  .next (if s.srPc ≠ .idle then s.faultConcurrent i.word
    else if op = .init then s.initStart
    else if s.srReady = false then s.faultNotInitialised i.word
    else s.pushStart op bytes)

/-! ## The sequencer -/

/-- The end of byte `j` of operation `op` (R183), CLK already low: `DataRest()`, then the next byte's first bit, or
the end of the push. -/
def State.byteEnd (s : State) (j : Nat) (op : SrOp) : State :=
  match s.srBytes[j + 1]? with
  | some v => s.dataRest.dataSetup (j + 1) 7 v
  | none => s.dataRest.afterPush op

/-- The end of bit `i` of byte `j`, which is `v` (R183): CLK falls, and the next bit or the end of the byte
follows. -/
def State.bitEnd (s : State) (j : Nat) (i : Fin 8) (v : Byte) (op : SrOp) : State :=
  if 0 < i.val then (s.driveLow .clk).dataSetup j (i - 1) v else (s.driveLow .clk).byteEnd j op

/-- The delay at `sr_pc` ends, and the sequencer runs to its next suspension point or returns (R183). With nothing
suspended nothing happens (log 18). A position `S_HIGH(j,i)` with no byte j, or
with no operation, which no run reaches, is a fault (log 14). -/
def srResume (s : State) : Host.Outcome State Fault Refusal :=
  match s.srPc with
  | .idle => .next s
  | .sInit => .next (s.setReady true).srReturn
  | .sSetup j i => .next ((s.driveHigh .clk).suspend .high (.sHigh j i))
  | .sHigh j i =>
    match s.srBytes[j]?, s.srOp with
    | some v, some op => .next (s.bitEnd j i v op)
    | _, _ => .fault .sequencerPosition
  | .sLatch => .next (s.driveLow .latch).srReturn

/-- `k` delays end, one after the other: the sequencer alone, for statements about whole operations. -/
def srResumeTimes : Nat → State → Host.Outcome State Fault Refusal
  | 0, s => .next s
  | k + 1, s =>
    match srResume s with
    | .next s' => srResumeTimes k s'
    | .fault r => .fault r
    | .refused r => .refused r

/-! ## The operations -/

/-- SR.INIT (R170). -/
def execSrInit (s : State) : Host.Outcome State Fault Refusal := srStart .srInit .init [] s

/-- SR.PUSH_BYTE (R175). -/
def execSrPushByte (v : Byte) (s : State) : Host.Outcome State Fault Refusal :=
  srStart (.srPushByte v) .pushByte [v] s

/-- SR.PUSH_BYTES (R176). -/
def execSrPushBytes (bytes : List Byte) (s : State) : Host.Outcome State Fault Refusal :=
  srStart (.srPushBytes bytes) .pushBytes bytes s

/-- SR.TRANSFER (R177). -/
def execSrTransfer (s : State) : Host.Outcome State Fault Refusal := srStart .srTransfer .transfer [] s

/-- SR.PUSH_BYTE_AND_TRANSFER (R178). -/
def execSrPushByteAndTransfer (v : Byte) (s : State) : Host.Outcome State Fault Refusal :=
  srStart (.srPushByteAndTransfer v) .pushByteAndTransfer [v] s

/-- SR.PUSH_BYTES_AND_TRANSFER (R179). -/
def execSrPushBytesAndTransfer (bytes : List Byte) (s : State) : Host.Outcome State Fault Refusal :=
  srStart (.srPushBytesAndTransfer bytes) .pushBytesAndTransfer bytes s

/-- SR.SET_OUTPUTS (R180). -/
def execSrSetOutputs (v : Byte) (s : State) : Host.Outcome State Fault Refusal :=
  srStart (.srSetOutputs v) .setOutputs [v] s

/-- SR.CLEAR_OUTPUTS (R181). -/
def execSrClearOutputs (s : State) : Host.Outcome State Fault Refusal :=
  srStart .srClearOutputs .clearOutputs [0x00#8] s

/-- SR.SET_ALL_OUTPUTS (R182). -/
def execSrSetAllOutputs (s : State) : Host.Outcome State Fault Refusal :=
  srStart .srSetAllOutputs .setAllOutputs [0xFF#8] s

end Sys2Proof.Machine
end

