-- ==== Sys2Proof/Machine/Dispatch.lean ====
section
/-! DEFINITION. The meaning of every operation: one arm per constructor of Instr. -/

namespace Sys2Proof.Machine

def exec (i : Instr) (s : State) : Host.Outcome State Fault Refusal :=
  match i with
  | .segEncode decimal dot on => Sys2Proof.Machine.execSegEncode decimal dot on s
  | .srInit => Sys2Proof.Machine.execSrInit s
  | .srPushByte v => Sys2Proof.Machine.execSrPushByte v s
  | .srPushBytes bytes => Sys2Proof.Machine.execSrPushBytes bytes s
  | .srTransfer => Sys2Proof.Machine.execSrTransfer s
  | .srPushByteAndTransfer v => Sys2Proof.Machine.execSrPushByteAndTransfer v s
  | .srPushBytesAndTransfer bytes => Sys2Proof.Machine.execSrPushBytesAndTransfer bytes s
  | .srSetOutputs v => Sys2Proof.Machine.execSrSetOutputs v s
  | .srClearOutputs => Sys2Proof.Machine.execSrClearOutputs s
  | .srSetAllOutputs => Sys2Proof.Machine.execSrSetAllOutputs s
  | .rtcInit => Sys2Proof.Machine.execRtcInit s
  | .rtcGetDatetime => Sys2Proof.Machine.execRtcGetDatetime s
  | .rtcSetDatetime t => Sys2Proof.Machine.execRtcSetDatetime t s
  | .rtcGetTemperature => Sys2Proof.Machine.execRtcGetTemperature s
  | .rtcIsBusy => Sys2Proof.Machine.execRtcIsBusy s
  | .bcdDec b => Sys2Proof.Machine.execBcdDec b s
  | .bcdEnc n => Sys2Proof.Machine.execBcdEnc n s

end Sys2Proof.Machine
end

