-- ==== Sys2Proof/Machine/Agents.lean ====
section
/-! DEFINITION. The HOST and the TIMER (spec/00_scope.md R15, R16): what the next item of `State.host` makes the
machine do (log 3). -/

namespace Sys2Proof.Machine

/-- The HOST presents an operation (10_state.md R34): decoded first, and refused there or executed
(60_exceptions.md R278). -/
def present (w : OpWord) (oob : Oob) (s : State) : Host.Outcome State Fault Refusal :=
  match decode w oob with
  | .ok i => exec i s
  | .refused why => .next (s.refuse (refusalOutcome w oob why))

/-- One step of the machine: the next item of `State.host`. With no item left the TIMER lets a suspended SR
operation run on, and an idle machine stays as it is, its run ended (10_state.md R60; log 17). -/
def agentStep (s : State) : Host.Outcome State Fault Refusal :=
  match s.host with
  | .call w oob :: _ => present w oob s.popHost
  | .cancel :: _ => .next s.popHost.cancelSr
  | .elapse :: _ => srResume s.popHost
  | .await :: _ => if s.srPc = .idle then .next s.popHost else srResume s
  | [] => srResume s

/-- The HOST's next act becomes the call of this word. -/
def State.withCall (s : State) (w : OpWord) (oob : Oob) : State := { s with host := .call w oob :: s.host }

end Sys2Proof.Machine
end

