-- ==== Sys2Proof/Machine/Step.lean ====
section
/-! DEFINITION. One step of the machine. -/

namespace Sys2Proof.Machine

/-- One step (spec/00_scope.md R15, R16). -/
def step (s : State) : Host.Outcome State Fault Refusal := agentStep s

/-- `s` with a table row's operation as the HOST's next call, beside the least out-of-band operand its form takes
(log 15). -/
def State.withFetchWord (s : State) (nbits w : Nat) : State :=
  s.withCall (tableWord nbits w) (leastOob (tableWord nbits w))

end Sys2Proof.Machine
end

