-- ==== Sys2Proof/Machine/Display.lean ====
section
/-! DEFINITION. What the chain puts out, and the segment each output line drives (spec/10_state.md R49, R50;
40_segment_encoder.md R141 to R143). Whether the outputs are enabled, and which digit a chip drives, is outside the
spec (log 20). -/

namespace Sys2Proof.Machine

/-- The segments of a digit, with its decimal point (40_segment_encoder.md R141). -/
inductive Segment where
  | a
  | b
  | c
  | d
  | e
  | f
  | g
  | dp
  deriving DecidableEq, Repr

/-- The wiring, fixed (40_segment_encoder.md R141): the bit of a pattern, and the output line of a chip, that drives a
segment. -/
def segmentBit : Segment → Nat
  | .g => 7
  | .f => 6
  | .dp => 5
  | .a => 4
  | .b => 3
  | .c => 2
  | .d => 1
  | .e => 0

/-- `OUT`, the chain's outputs while they are enabled (10_state.md R49). -/
def State.out (s : State) : List Level := s.store

/-- The level of the line of chip `k` that drives a segment: at 1 the segment is lit, at 0 dark, at X unknown (10_state.md
R50, R57; 40_segment_encoder.md R142). A chip past the end of the chain drives nothing known. -/
def State.segmentLine (s : State) (k : Nat) (seg : Segment) : Level := s.out.getD (8 * k + segmentBit seg) .x

end Sys2Proof.Machine
end

