-- ==== Sys2Proof/WellFormed.lean ====
section
/-! DEFINITION. When an operation's operands have a meaning (spec/42_rtc.md R225, R242). Every other operand is
defined at every value of its type (30_encoding.md R116, 40_segment_encoder.md R146, 41_shift_register.md R176). -/

namespace Sys2Proof

/-- The operand of `i` has a meaning: BCD.ENC at most 99 (R225), RTC.SET_DATETIME every field in range (R242).
Decoding accepts the others too; the operation itself then sets the refusal mark (60_exceptions.md R278). -/
def Instr.wellFormed : Instr → Bool
  | .bcdEnc n => Machine.bcdInRange n.toNat
  | .rtcSetDatetime t => Machine.dateTimeInRange t
  | .segEncode _ _ _ | .srInit | .srPushByte _ | .srPushBytes _ | .srTransfer | .srPushByteAndTransfer _
  | .srPushBytesAndTransfer _ | .srSetOutputs _ | .srClearOutputs | .srSetAllOutputs | .rtcInit | .rtcGetDatetime
  | .rtcGetTemperature | .rtcIsBusy | .bcdDec _ => true

end Sys2Proof
end

