-- ==== Sys2Proof/Safety.lean ====
section
/-! DEFINITION. What counts as a safe and as a finished run, the invariant of the machine, and the vocabulary of
the statements: serial bits, wire traces, edges, chips (spec/10_state.md, 20_memory.md, 41_shift_register.md). -/

namespace Sys2Proof.Machine

/-! ## Runs -/

/-- No fault bit is set and the refusal mark is not set (10_state.md R60). -/
def State.unmarked (s : State) : Prop := s.faults = ⟨false, false⟩ ∧ s.refused = false

/-- The end of a run (10_state.md R60). -/
def State.final (s : State) : Prop := s.host = [] ∧ s.srPc = .idle ∧ s.unmarked

/-- The SR unit may start an operation other than SR.INIT: idle, and initialised (41_shift_register.md R171). -/
def State.srUsable (s : State) : Prop := s.srPc = .idle ∧ s.srReady = true

/-- CLK and LATCH at rest (90_conflicts.md C4: both are low after every completed operation). -/
def State.atRest (s : State) : Prop := s.lines.clk = .zero ∧ s.lines.latch = .zero

/-- The parameters, the SR driver, the chain, the fault bits and the HOST's list are the same in both states: what the
operations of the other units leave as it was (00_scope.md R15). -/
def State.sameDriver (s t : State) : Prop :=
  t.params = s.params ∧ t.lines = s.lines ∧ t.srReady = s.srReady ∧ t.srPc = s.srPc ∧ t.srOp = s.srOp ∧
    t.srBytes = s.srBytes ∧ t.shift = s.shift ∧ t.store = s.store ∧ t.faults = s.faults ∧ t.host = s.host

/-! ## The invariant -/

/-- All three lines are known. -/
def Lines.known (ls : Lines) : Prop := ls.clk ≠ .x ∧ ls.latch ≠ .x ∧ ls.data ≠ .x

/-- At a suspension point inside byte j: an operation other than SR.INIT is in progress, it has a byte j, and DATA
is at bit i of it (60_exceptions.md R281). -/
def State.atBit (s : State) (j : Nat) (i : Fin 8) : Prop :=
  s.srReady = true ∧ (∃ op, s.srOp = some op ∧ op ≠ .init) ∧
    ∃ v, s.srBytes[j]? = some v ∧ s.lines.data = Level.ofBool (v.getLsbD i)

/-- What each sequencer position says of the rest of the SR unit (41_shift_register.md R183). -/
def State.positionOk (s : State) : Prop :=
  match s.srPc with
  | .idle => s.srOp = none ∧ s.srBytes = []
  | .sInit => s.srReady = false ∧ s.srOp = some .init ∧ s.srBytes = [] ∧ s.lines = ⟨.zero, .zero, .zero⟩
  | .sSetup j i => s.atBit j i
  | .sHigh j i => s.atBit j i ∧ s.lines.clk = .one
  | .sLatch => s.srReady = true ∧ (∃ op, s.srOp = some op ∧ op.latches = true) ∧ s.lines.latch = .one

/-- The machine's invariant: the configuration is one a block may have (00_scope.md R6, 40_segment_encoder.md R144,
70_reset_and_hazards.md R323), the chain has its 8·N bits in both registers (10_state.md R47), the lines are known
whenever the SR unit is initialised or running (R58), and the sequencer position fits the rest of the SR unit (at IDLE,
by the model's choice, no operation and no bytes, log 12). -/
structure State.Inv (s : State) : Prop where
  config : s.params.admissible = true
  shift_length : s.shift.length = 8 * s.params.nChips
  store_length : s.store.length = 8 * s.params.nChips
  lines_known : s.srReady = true ∨ s.srPc ≠ .idle → s.lines.known
  position : s.positionOk

/-! ## The segment table -/

end Sys2Proof.Machine

namespace Sys2Proof

/-- No entry has bit 5, the decimal point's, set (40_segment_encoder.md R144). -/
def SegTable.noDot (t : SegTable) : Prop := ∀ r ∈ t.rows, r.getLsbD 5 = false

end Sys2Proof

namespace Sys2Proof.Machine

/-- The segments a decimal lights (40_segment_encoder.md R143): none above 9. -/
def litSegments (decimal : Nat) : List Segment :=
  match decimal with
  | 0 => [.a, .b, .c, .d, .e, .f]
  | 1 => [.b, .c]
  | 2 => [.a, .b, .d, .e, .g]
  | 3 => [.a, .b, .c, .d, .g]
  | 4 => [.b, .c, .f, .g]
  | 5 => [.a, .c, .d, .f, .g]
  | 6 => [.a, .c, .d, .e, .f, .g]
  | 7 => [.a, .b, .c]
  | 8 => [.a, .b, .c, .d, .e, .f, .g]
  | 9 => [.a, .b, .c, .d, .f, .g]
  | _ => []

/-! ## Operations by unit -/

/-- The SR operations other than SR.INIT, each as the operation kept beside `sr_pc` and the byte list it pushes
(41_shift_register.md R175 to R182): SR.TRANSFER pushes nothing, SR.CLEAR_OUTPUTS 0x00, SR.SET_ALL_OUTPUTS
0xFF. -/
def pushForm : Instr → Option (SrOp × List Byte)
  | .srPushByte v => some (.pushByte, [v])
  | .srPushBytes bytes => some (.pushBytes, bytes)
  | .srTransfer => some (.transfer, [])
  | .srPushByteAndTransfer v => some (.pushByteAndTransfer, [v])
  | .srPushBytesAndTransfer bytes => some (.pushBytesAndTransfer, bytes)
  | .srSetOutputs v => some (.setOutputs, [v])
  | .srClearOutputs => some (.clearOutputs, [0x00#8])
  | .srSetAllOutputs => some (.setAllOutputs, [0xFF#8])
  | .segEncode _ _ _ | .srInit | .rtcInit | .rtcGetDatetime | .rtcSetDatetime _ | .rtcGetTemperature | .rtcIsBusy
  | .bcdDec _ | .bcdEnc _ => none

/-- The operations of the SR unit. -/
def isSr (i : Instr) : Bool := decide (i = .srInit) || (pushForm i).isSome

/-- The operations of the RTC unit that use the bus. -/
def isRtc : Instr → Bool
  | .rtcInit | .rtcGetDatetime | .rtcSetDatetime _ | .rtcGetTemperature | .rtcIsBusy => true
  | .segEncode _ _ _ | .srInit | .srPushByte _ | .srPushBytes _ | .srTransfer | .srPushByteAndTransfer _
  | .srPushBytesAndTransfer _ | .srSetOutputs _ | .srClearOutputs | .srSetAllOutputs | .bcdDec _ | .bcdEnc _ => false

/-! ## Reserved words -/

/-- The fields of a reserved encoding, as 30_encoding.md R115 lists them. -/
def reservedFields (unit fn imm : Nat) : Prop :=
  4 ≤ unit ∨ (unit = 0 ∧ 4 ≤ fn) ∨ (unit = 1 ∧ 9 ≤ fn) ∨ (unit = 2 ∧ 5 ≤ fn) ∨ (unit = 3 ∧ 2 ≤ fn) ∨
    (((unit = 1 ∧ fn ∈ [0, 2, 3, 5, 7, 8]) ∨ (unit = 2 ∧ fn ≤ 4)) ∧ imm ≠ 0)

/-- The reserved encodings (30_encoding.md R115). -/
def reservedWord (w : OpWord) : Prop :=
  reservedFields (unitField w).toNat (fnField w).toNat (immByte w).toNat

/-! ## Serial bits and the chain -/

/-- A byte as it is sent, MSB first (20_memory.md R83). -/
def bitsMsbFirst (v : Byte) : List Bool :=
  [v.getLsbD 7, v.getLsbD 6, v.getLsbD 5, v.getLsbD 4, v.getLsbD 3, v.getLsbD 2, v.getLsbD 1, v.getLsbD 0]

/-- The bit sequence `s_1 .. s_8m` of a push (41_shift_register.md R186). -/
def serialBits (bytes : List Byte) : List Bool := bytes.flatMap bitsMsbFirst

/-- The shift stage of `n` chips after shifting `bits` in, in order (41_shift_register.md R186): the last bit at
SHIFT[0], the old content above. -/
def shiftedBits (n : Nat) (bits : List Bool) (shift : List Level) : List Level :=
  (bits.reverse.map Level.ofBool ++ shift).take (8 * n)

/-- Chip k's eight bits of a register, bit 0 first (10_state.md R47). -/
def chipBits (reg : List Level) (k : Nat) : List Level := (reg.drop (8 * k)).take 8

/-- A byte as the eight levels of a chip, bit 0 first. -/
def byteLevels (v : Byte) : List Level := (bitsMsbFirst v).reverse.map Level.ofBool

/-! ## Wire traces -/

/-- One bit on the wire (41_shift_register.md R172). -/
def bitTrace (p : Params) (b : Bool) : List Event :=
  [.lineSet .data b, .delay .setup p.tSetup, .lineSet .clk true, .delay .high p.tHigh, .lineSet .clk false]

/-- One byte on the wire, and what `DataRest()` adds if it was drawn to drive DATA low (R173). -/
def byteTrace (p : Params) (v : Byte) (rest : Bool) : List Event :=
  (bitsMsbFirst v).flatMap (bitTrace p) ++ if rest then [.lineSet .data false] else []

/-- A push on the wire, with the draw of `DataRest()` after each byte. -/
def pushTrace (p : Params) : List Byte → List Bool → List Event
  | v :: vs, r :: rs => byteTrace p v r ++ pushTrace p vs rs
  | _, _ => []

/-- The latch pulse on the wire, where the operation has one (R174). -/
def latchTrace (p : Params) (op : SrOp) : List Event :=
  if op.latches then [.lineSet .latch true, .delay .latch p.tLatch, .lineSet .latch false] else []

/-- How many delays end in a whole push operation (R185). -/
def delaysOf (op : SrOp) (bytes : List Byte) : Nat := 16 * bytes.length + if op.latches then 1 else 0

/-- The edges a reader of the history sees on line `l`, rising or falling, from level `old` on
(00_scope.md R13, 10_state.md R41). -/
def edgeCount (l : Line) (rising : Bool) : Level → List Event → Nat
  | _, [] => 0
  | old, .lineSet l' v :: es =>
    if l' = l then
      (if v = rising ∧ old = Level.ofBool (!rising) then 1 else 0) + edgeCount l rising (Level.ofBool v) es
    else edgeCount l rising old es
  | old, _ :: es => edgeCount l rising old es

/-- How many delays of a kind the history holds. -/
def delayCount (kind : DelayKind) (es : List Event) : Nat :=
  es.countP fun
    | .delay k _ => k = kind
    | _ => false

/-- An event of the SR unit: a line write or a delay. -/
def isSrEvent : Event → Bool
  | .lineSet _ _ | .delay _ _ => true
  | .busWR _ _ _ _ | .busW _ _ _ | .cancel _ => false

/-- A bus transaction. -/
def isBusEvent : Event → Bool
  | .busWR _ _ _ _ | .busW _ _ _ => true
  | .lineSet _ _ | .delay _ _ | .cancel _ => false

end Sys2Proof.Machine
end

