-- ==== Sys2Proof/Certificates/Slice0/Obligations.lean ====
section
/-! DEFINITION. The statements about cloc-core, each from the numbered rules of spec/ that its docstring names.
"The push forms" are the SR operations other than SR.INIT: SR.PUSH_BYTE, SR.PUSH_BYTES, SR.TRANSFER,
SR.PUSH_BYTE_AND_TRANSFER, SR.PUSH_BYTES_AND_TRANSFER, SR.SET_OUTPUTS, SR.CLEAR_OUTPUTS and SR.SET_ALL_OUTPUTS,
with the byte list each pushes (`pushForm`). -/

open Sys2Proof Sys2Proof.Machine

/-! ## Encoding -/

/-- Words of 95_test_vectors.md, one or more for each unit, decode to the operations they stand for (R106, R103). -/
def Obligations.TableWordsDecodeAsWritten : Prop :=
  decode 0x0308#16 .absent = .ok (.segEncode 8#8 true true) ∧
  decode 0x0105#16 .absent = .ok (.segEncode 5#8 true false) ∧
  decode 0x1000#16 .absent = .ok .srInit ∧
  decode 0x11FF#16 .absent = .ok (.srPushByte 0xFF#8) ∧
  decode 0x1500#16 (.list [0xCC#8, 0x9B#8]) = .ok (.srPushBytesAndTransfer [0xCC#8, 0x9B#8]) ∧
  decode 0x163C#16 .absent = .ok (.srSetOutputs 0x3C#8) ∧
  decode 0x2200#16 (.record ⟨2024, 12, 31, 23, 59, 58⟩) = .ok (.rtcSetDatetime ⟨2024, 12, 31, 23, 59, 58⟩) ∧
  decode 0x2400#16 .absent = .ok .rtcIsBusy ∧
  decode 0x3117#16 .absent = .ok (.bcdEnc 23#8)

/-- Decoding an operation's word and out-of-band operand gives the operation back, with every operand (R106,
R107, R103). -/
def Obligations.DecodeOfEncodeIsTheInstruction : Prop :=
  ∀ i : Instr, decode (encode i).1 (encode i).2 = .ok i

/-- A word that decodes is the word of the operation it decodes to: every word has one meaning. The SEG row alone
looks at no out-of-band operand (R106, R107). -/
def Obligations.EncodeOfDecodeIsTheWord : Prop :=
  ∀ (w : OpWord) (oob : Oob) (i : Instr), decode w oob = .ok i →
    i.word = w ∧ (i.oob = oob ∨ ∃ decimal dot on, i = .segEncode decimal dot on)

/-- No word selects two rows of the opcode map (R106). -/
def Obligations.NoWordSelectsTwoRows : Prop :=
  opcodeTable.Pairwise fun r r' => ∀ w, ¬ (r.selects w = true ∧ r'.selects w = true)

/-- R115: the reserved words are exactly those of its list; presenting one sets the refusal mark, is reported with
the word, and does nothing else. -/
def Obligations.ReservedWordsSetTheRefusalMark : Prop :=
  (∀ (w : OpWord) (oob : Oob), decode w oob = .refused .reservedEncoding ↔ reservedWord w) ∧
  ∀ (s : State) (w : OpWord) (oob : Oob), reservedWord w →
    present w oob s = .next { s with
      refused := true
      outcomes := s.outcomes ++ [.refusedReservedEncoding w] }

/-- R107, R105: a list form without a byte list and the record form without a record are refused for a missing
operand, every other form but SEG's with an out-of-band operand for an extra one. (That SEG.ENCODE's words decode whatever
stands beside them is the model's reading of R107's order of lines, log 22.) -/
def Obligations.OutOfBandOperandIsChecked : Prop :=
  (∀ (decimal : Byte) (dot on : Bool) (oob : Oob),
    decode (Instr.segEncode decimal dot on).word oob = .ok (.segEncode decimal dot on)) ∧
  (∀ (w : OpWord) (oob : Oob), w = 0x1200#16 ∨ w = 0x1500#16 → (∀ bytes, oob ≠ .list bytes) →
    decode w oob = .refused .missingOperand) ∧
  (∀ oob : Oob, (∀ t, oob ≠ .record t) → decode 0x2200#16 oob = .refused .missingOperand) ∧
  ∀ (w : OpWord) (oob : Oob), ¬ reservedWord w → (unitField w).toNat ≠ 0 → w ≠ 0x1200#16 → w ≠ 0x1500#16 →
    w ≠ 0x2200#16 → oob ≠ .absent → decode w oob = .refused .extraOperand

/-! ## Steps -/

/-- A step at which the HOST presents an operation that decodes is `exec` of it, with the HOST's list moved on by
that one item (10_state.md R34; the list is the model's, log 3). -/
def Obligations.StepRunsThePresentedOperation : Prop :=
  ∀ (s : State) (w : OpWord) (oob : Oob) (rest : List HostAct) (i : Instr), s.host = .call w oob :: rest →
    decode w oob = .ok i → step s = exec i { s with host := rest }

/-- R277, R272: an operation that decoding refuses sets the refusal mark, is reported with its code, and does nothing
else; a step at which the HOST presents it does just that, with the HOST's list moved on (log 3). -/
def Obligations.UndecodableCallIsRefused : Prop :=
  ∀ (s : State) (w : OpWord) (oob : Oob) (rest : List HostAct) (why : DecodeRefusal),
    s.host = .call w oob :: rest → decode w oob = .refused why →
    step s = .next { s with
      host := rest
      refused := true
      outcomes := s.outcomes ++ [match why with
        | .reservedEncoding => .refusedReservedEncoding w
        | .missingOperand => .refusedOperand w (.missingOperand oob)
        | .extraOperand => .refusedOperand w (.extraOperand oob)] }

/-- The model's schedule, its own choice (logs 3, 17, 18), by which the agents of R15 and R16 move: the end of a delay,
a cancellation, a serialized caller's wait, and the TIMER running on when the HOST has nothing more to do; with the SR
unit idle a cancellation does nothing, and a machine at the end of its run (R60) stays as it is. -/
def Obligations.AgentsMoveByTheSchedule : Prop :=
  (∀ (s : State) (rest : List HostAct), s.host = .elapse :: rest → step s = srResume { s with host := rest }) ∧
  (∀ (s : State) (rest : List HostAct), s.host = .cancel :: rest →
    step s = .next (if s.srPc = .idle then { s with host := rest } else State.cancelSr { s with host := rest })) ∧
  (∀ (s : State) (rest : List HostAct), s.host = .await :: rest → s.srPc ≠ .idle → step s = srResume s) ∧
  (∀ (s : State) (rest : List HostAct), s.host = .await :: rest → s.srPc = .idle →
    step s = .next { s with host := rest }) ∧
  (∀ s : State, s.host = [] → step s = srResume s) ∧
  ∀ s : State, s.final → step s = .next s

/-! ## Segment encoder -/

/-- R146: the word 0b000000 on dot decimal is SEG.ENCODE, and it reports the digit's pattern if `on` and the decimal
is at most 9, else no segment, with the dot bit whatever `on` is; nothing else changes, and bit 5 of the result is
`dot`. (R144 is what the table must keep.) That the word decodes whatever stands beside it is the model's reading of
R107's order of lines (log 22). -/
def Obligations.SegEncodeReportsThePattern : Prop :=
  ∀ (decimal : Byte) (dot on : Bool) (s : State), s.params.segTable.noDot →
    (∀ oob : Oob, decode (0#6 ++ BitVec.ofBool on ++ BitVec.ofBool dot ++ decimal) oob =
      .ok (.segEncode decimal dot on)) ∧
    ∃ v : Byte,
      v = (if on = true ∧ decimal.toNat ≤ 9 then s.params.segTable.rows.getD decimal.toNat 0#8 else 0x00#8) |||
        (if dot then 0x20#8 else 0x00#8) ∧
      v.getLsbD 5 = dot ∧
      exec (.segEncode decimal dot on) s = .next { s with outcomes := s.outcomes ++ [.ok (.u8 v)] }

/-- R147, all four laws of SEG.ENCODE, for every table as R144 asks. -/
def Obligations.SegEncodeLaws : Prop :=
  ∀ t : SegTable, t.noDot →
    (∀ decimal : Byte, decimal.toNat ≤ 9 → some (segValue t decimal false true) = t.rows[decimal.toNat]?) ∧
    (∀ (decimal : Byte) (dot : Bool), segValue t decimal dot false &&& 0xDF#8 = 0x00#8) ∧
    (∀ (decimal : Byte) (dot on : Bool), (segValue t decimal dot on).getLsbD 5 = dot ∧
      ∀ b : Nat, b ≠ 5 → (segValue t decimal dot on).getLsbD b = (segValue t decimal (!dot) on).getLsbD b) ∧
    ∀ (decimal : Byte) (dot : Bool), 10 ≤ decimal.toNat → segValue t decimal dot true &&& 0xDF#8 = 0x00#8

/-- R148: the combinational equations of the eight bits SEG.ENCODE reports under the default table of R143. -/
def Obligations.SegEquationsUnderDefaultTable : Prop :=
  ∀ (decimal : Byte) (dot on : Bool) (s : State), s.params.segTable = defaultParams.segTable →
    ∃ seg : Byte,
      exec (.segEncode decimal dot on) s = .next { s with outcomes := s.outcomes ++ [.ok (.u8 seg)] } ∧
      let v := on && decide (decimal.toNat ≤ 9)
      let d := decimal.toNat
      seg.getLsbD 4 = (v && [0, 2, 3, 5, 6, 7, 8, 9].contains d) ∧
      seg.getLsbD 3 = (v && [0, 1, 2, 3, 4, 7, 8, 9].contains d) ∧
      seg.getLsbD 2 = (v && [0, 1, 3, 4, 5, 6, 7, 8, 9].contains d) ∧
      seg.getLsbD 1 = (v && [0, 2, 3, 5, 6, 8, 9].contains d) ∧
      seg.getLsbD 0 = (v && [0, 2, 6, 8].contains d) ∧
      seg.getLsbD 6 = (v && [0, 4, 5, 6, 8, 9].contains d) ∧
      seg.getLsbD 7 = (v && [2, 3, 4, 5, 6, 8, 9].contains d) ∧
      seg.getLsbD 5 = dot

/-! ## BCD -/

/-- R221: the word 0x30bb is BCD.DEC, which reports ten times the high nibble plus the low one, at most 165, for every
byte, and changes nothing else. -/
def Obligations.BcdDecReportsTheNumber : Prop :=
  ∀ (b : Byte) (s : State), decode (0x30#8 ++ b) .absent = .ok (.bcdDec b) ∧ ∃ v : Byte,
    v.toNat = ((b &&& 0xF0#8) >>> 4).toNat * 10 + (b &&& 0x0F#8).toNat ∧ v.toNat ≤ 165 ∧
    exec (.bcdDec b) s = .next { s with outcomes := s.outcomes ++ [.ok (.u8 v)] }

/-- R222, R225: the word 0x31nn is BCD.ENC, which up to 99 reports the byte of its two digits, valid BCD, and changes
nothing else; above 99 it sets the refusal mark, is reported with word and operand, and does nothing else. -/
def Obligations.BcdEncReportsTheByteOrRefuses : Prop :=
  ∀ (n : Byte) (s : State), decode (0x31#8 ++ n) .absent = .ok (.bcdEnc n) ∧
    (n.toNat ≤ 99 → ∃ v : Byte, v.toNat = n.toNat / 10 * 16 + n.toNat % 10 ∧
      (v >>> 4).toNat ≤ 9 ∧ (v &&& 0x0F#8).toNat ≤ 9 ∧
      exec (.bcdEnc n) s = .next { s with outcomes := s.outcomes ++ [.ok (.u8 v)] }) ∧
    (99 < n.toNat → exec (.bcdEnc n) s = .next { s with
      refused := true
      outcomes := s.outcomes ++ [.refusedOperand (Instr.bcdEnc n).word (.bcdRange n)] })

/-- R223: BCD.DEC of what BCD.ENC reports is the number again, for 0 to 99, and BCD.ENC of what BCD.DEC reports is
the byte again, for every valid BCD byte. -/
def Obligations.BcdRoundTrips : Prop :=
  (∀ (n : Byte) (s : State), n.toNat ≤ 99 → ∃ v : Byte,
    exec (.bcdEnc n) s = .next { s with outcomes := s.outcomes ++ [.ok (.u8 v)] } ∧
    exec (.bcdDec v) s = .next { s with outcomes := s.outcomes ++ [.ok (.u8 n)] }) ∧
  ∀ (b : Byte) (s : State), (b >>> 4).toNat ≤ 9 → (b &&& 0x0F#8).toNat ≤ 9 → ∃ v : Byte,
    exec (.bcdDec b) s = .next { s with outcomes := s.outcomes ++ [.ok (.u8 v)] } ∧
    exec (.bcdEnc v) s = .next { s with outcomes := s.outcomes ++ [.ok (.u8 b)] }

/-! ## Lines and the chain -/

/-- R52: a rising edge of CLK shifts `line[DATA]` in at SHIFT[0], keeping 8·N bits; one of LATCH copies SHIFT to
STORE; falling edges and every write of DATA change neither; the write itself is recorded and sets the line. -/
def Obligations.ChainReactsToRisingEdges : Prop :=
  (∀ s : State, s.lines.clk = .zero → s.drive .clk true =
    { s with
      lines := { s.lines with clk := .one }
      hist := s.hist ++ [.lineSet .clk true]
      shift := (s.lines.data :: s.shift).take (8 * s.params.nChips) }) ∧
  (∀ s : State, s.lines.latch = .zero → s.drive .latch true =
    { s with
      lines := { s.lines with latch := .one }
      hist := s.hist ++ [.lineSet .latch true]
      store := s.shift }) ∧
  (∀ (s : State) (l : Line), s.drive l false =
    { s with lines := s.lines.set l .zero, hist := s.hist ++ [.lineSet l false] }) ∧
  ∀ (s : State) (v : Bool), (s.drive .data v).shift = s.shift ∧ (s.drive .data v).store = s.store ∧
    (s.drive .data v).lines = { s.lines with data := Level.ofBool v } ∧
    (s.drive .data v).hist = s.hist ++ [.lineSet .data v]

/-- R13, R58, R53: driving a line that is already 1 is no edge; driving one from X to 1 draws whether it is one; STORE
changes at no write but one of LATCH to 1, SHIFT at none but one of CLK to 1. -/
def Obligations.NoEdgeWithoutARise : Prop :=
  (∀ (s : State) (l : Line), s.lines.get l = .one → s.drive l true =
    { s with hist := s.hist ++ [.lineSet l true] }) ∧
  (∀ (s : State) (l : Line), s.lines.get l = .x →
    (s.drive l true).draws = s.draws + 1 ∧ (s.drive l true).lines = s.lines.set l .one ∧
    (((s.drive l true).shift = s.shift ∧ (s.drive l true).store = s.store) ∨
      ((s.drive l true).shift =
          if l = .clk then (s.lines.data :: s.shift).take (8 * s.params.nChips) else s.shift) ∧
        (s.drive l true).store = if l = .latch then s.shift else s.store)) ∧
  ∀ (s : State) (l : Line) (v : Bool),
    ((s.drive l v).store ≠ s.store → l = .latch ∧ v = true) ∧
    ((s.drive l v).shift ≠ s.shift → l = .clk ∧ v = true)

/-! ## SR operations: starting -/

/-- R170: the word 0x1000 is SR.INIT. Presented to an idle SR unit it drives CLK, LATCH and DATA low in that order and
waits in its settle delay, not ready; when the delay ends it returns, ready and idle. Neither SHIFT nor STORE changes,
nor anything else. A busy unit is the one case it reports CONCURRENT_CALL. -/
def Obligations.SrInitDrivesTheLinesLow : Prop :=
  decode 0x1000#16 .absent = .ok .srInit ∧
  ∀ s : State,
    let events : List Event :=
      [.lineSet .clk false, .lineSet .latch false, .lineSet .data false, .delay .init s.params.tInit]
    (s.srPc = .idle → ∃ t u : State,
      exec .srInit s = .next t ∧
      t = { s with
        lines := ⟨.zero, .zero, .zero⟩
        srReady := false
        srPc := .sInit
        srOp := some .init
        srBytes := []
        hist := s.hist ++ events } ∧
      srResumeTimes 1 t = .next u ∧
      u.lines = ⟨.zero, .zero, .zero⟩ ∧ u.srReady = true ∧ u.srPc = .idle ∧ u.hist = s.hist ++ events ∧
      u.outcomes = s.outcomes ++ [.ok .unit] ∧ u.shift = s.shift ∧ u.store = s.store ∧ u.params = s.params ∧
      u.faults = s.faults ∧ u.refused = s.refused ∧ u.host = s.host ∧ u.bus = s.bus) ∧
    (s.srPc ≠ .idle → exec .srInit s = .next { s with
      faults := { s.faults with concurrentCall := true }
      outcomes := s.outcomes ++ [.concurrentCall 0x1000#16 s.srPc] })

/-- R183, R172: a push form with at least one byte, presented to an idle, initialised SR unit, puts bit 7 of its
first byte on DATA and waits in the setup delay; nothing else changes. (A draw is taken only if DATA was X, R58.) -/
def Obligations.PushFormStartsWithBitSeven : Prop :=
  ∀ (i : Instr) (op : SrOp) (v : Byte) (vs : List Byte) (s : State), pushForm i = some (op, v :: vs) →
    s.srUsable → exec i s = .next { s with
      lines := { s.lines with data := Level.ofBool (v.getLsbD 7) }
      srPc := .sSetup 0 7
      srOp := some op
      srBytes := v :: vs
      hist := s.hist ++ [.lineSet .data (v.getLsbD 7), .delay .setup s.params.tSetup]
      draws := if s.lines.data = .x ∧ v.getLsbD 7 = true then s.draws + 1 else s.draws }

/-- R176, R177, R179: a push form with no byte, presented to an idle, initialised SR unit: SR.PUSH_BYTES [] returns
with nothing done; SR.TRANSFER and SR.PUSH_BYTES_AND_TRANSFER [] raise LATCH, which from 0 copies SHIFT to STORE,
unknown bits included, and wait in the latch delay. (That no operation and no bytes are kept when SR.PUSH_BYTES []
has returned is the model's choice, log 12. LATCH at 1 is `LineLeftHighLosesTheNextEdge`.) -/
def Obligations.EmptyPushFormIsABareLatchOrNothing : Prop :=
  ∀ s : State, s.srUsable →
    exec (.srPushBytes []) s = .next { s with
      srOp := none, srBytes := [], outcomes := s.outcomes ++ [.ok .unit] } ∧
    (s.lines.latch = .zero → ∀ (i : Instr) (op : SrOp), pushForm i = some (op, []) → op ≠ .pushBytes →
      exec i s = .next { s with
        lines := { s.lines with latch := .one }
        srPc := .sLatch
        srOp := some op
        srBytes := []
        hist := s.hist ++ [.lineSet .latch true, .delay .latch s.params.tLatch]
        store := s.shift })

/-- R171: a push form started while `sr_ready` is false sets SR_NOT_INITIALISED, is reported, and does nothing else.
`sr_ready` is false at power-up and in SR.INIT's settle delay, and cancelling that delay leaves it false. (In the
delay itself the concurrency check comes first, R278.) -/
def Obligations.PushFormBeforeInitFaults : Prop :=
  (∀ (i : Instr) (op : SrOp) (bytes : List Byte) (s : State), pushForm i = some (op, bytes) → s.srPc = .idle →
    s.srReady = false → exec i s = .next { s with
      faults := { s.faults with srNotInitialised := true }
      outcomes := s.outcomes ++ [.srNotInitialised i.word] }) ∧
  (∀ p : Params, (State.powerUp p).srReady = false) ∧
  ∀ s t : State, s.srPc = .idle → exec .srInit s = .next t →
    t.srPc = .sInit ∧ t.srReady = false ∧ t.cancelSr.srReady = false ∧ t.cancelSr.srPc = .idle

/-- R276, R43: an SR operation presented while another is in progress sets CONCURRENT_CALL, is reported with word and
position, and does nothing else; no operation of another unit touches the fault bits. -/
def Obligations.OverlappingSrCallFaults : Prop :=
  (∀ (i : Instr) (s : State), isSr i = true → s.srPc ≠ .idle → exec i s = .next { s with
    faults := { s.faults with concurrentCall := true }
    outcomes := s.outcomes ++ [.concurrentCall i.word s.srPc] }) ∧
  ∀ (i : Instr) (s t : State), isSr i = false → exec i s = .next t → t.faults = s.faults

/-! ## SR operations: the sequencer -/

/-- R183: what the end of each delay does, with the lines as they then are, up to the next suspension point. `r` is the
draw of `DataRest()` (R173): DATA driven to 0 or left. Two clauses are the model's own: that no operation and no bytes
are kept at a return (log 12), and that with the unit idle the end of a delay does nothing (log 18). -/
def Obligations.SequencerTransitions : Prop :=
  (∀ s : State, s.srPc = .idle → srResume s = .next s) ∧
  (∀ s : State, s.srPc = .sInit → srResume s = .next { s with
    srReady := true, srPc := .idle, srOp := none, srBytes := [], outcomes := s.outcomes ++ [.ok .unit] }) ∧
  (∀ (s : State) (j : Nat) (i : Fin 8), s.srPc = .sSetup j i → s.lines.clk = .zero → srResume s = .next { s with
    lines := { s.lines with clk := .one }
    srPc := .sHigh j i
    hist := s.hist ++ [.lineSet .clk true, .delay .high s.params.tHigh]
    shift := (s.lines.data :: s.shift).take (8 * s.params.nChips) }) ∧
  (∀ (s : State) (j : Nat) (i : Fin 8) (v : Byte) (op : SrOp), s.srPc = .sHigh j i → s.srBytes[j]? = some v →
    s.srOp = some op → s.lines.known →
    (0 < i.val → srResume s = .next { s with
      lines := { s.lines with clk := .zero, data := Level.ofBool (v.getLsbD (i.val - 1)) }
      srPc := .sSetup j (i - 1)
      hist := s.hist ++ [.lineSet .clk false, .lineSet .data (v.getLsbD (i.val - 1)),
        .delay .setup s.params.tSetup] }) ∧
    (i.val = 0 → ∃ r : Bool,
      let rest : List Event := .lineSet .clk false :: if r then [.lineSet .data false] else []
      let data := if r then Level.zero else s.lines.data
      (∀ v' : Byte, s.srBytes[j + 1]? = some v' → srResume s = .next { s with
        lines := { s.lines with clk := .zero, data := Level.ofBool (v'.getLsbD 7) }
        srPc := .sSetup (j + 1) 7
        hist := s.hist ++ rest ++ [.lineSet .data (v'.getLsbD 7), .delay .setup s.params.tSetup]
        draws := s.draws + 1 }) ∧
      (s.srBytes[j + 1]? = none → op.latches = false → srResume s = .next { s with
        lines := { s.lines with clk := .zero, data := data }
        srPc := .idle
        srOp := none
        srBytes := []
        hist := s.hist ++ rest
        outcomes := s.outcomes ++ [.ok .unit]
        draws := s.draws + 1 }) ∧
      (s.srBytes[j + 1]? = none → op.latches = true → s.lines.latch = .zero → srResume s = .next { s with
        lines := { s.lines with clk := .zero, data := data, latch := .one }
        srPc := .sLatch
        hist := s.hist ++ rest ++ [.lineSet .latch true, .delay .latch s.params.tLatch]
        store := s.shift
        draws := s.draws + 1 }))) ∧
  ∀ s : State, s.srPc = .sLatch → srResume s = .next { s with
    lines := { s.lines with latch := .zero }
    srPc := .idle
    srOp := none
    srBytes := []
    hist := s.hist ++ [.lineSet .latch false]
    outcomes := s.outcomes ++ [.ok .unit] }

/-- R314, R282: with CLK left high by a cancellation the next rise of CLK is no edge and shifts nothing; with LATCH left
high the next rise of LATCH copies nothing. -/
def Obligations.LineLeftHighLosesTheNextEdge : Prop :=
  (∀ (s t : State) (j : Nat) (i : Fin 8), s.srPc = .sSetup j i → s.lines.clk = .one → srResume s = .next t →
    t.srPc = .sHigh j i ∧ t.shift = s.shift ∧ t.store = s.store) ∧
  (∀ s t : State, s.srUsable → s.lines.latch = .one → exec .srTransfer s = .next t →
    t.srPc = .sLatch ∧ t.store = s.store ∧ t.shift = s.shift) ∧
  ∀ (s t : State) (j : Nat) (i : Fin 8), s.srPc = .sHigh j i → s.lines.latch = .one → srResume s = .next t →
    t.store = s.store

/-! ## SR operations: whole -/

/-- R172 to R182, the wire format: a push form, presented to an idle, initialised SR unit, completes after
`delaysOf` delays. It then has recorded, after what was there before, each byte MSB first with one clock pulse a bit,
the draw of `DataRest()` after each byte, and a single trailing latch pulse for the transfer forms; it has reported
unit and is idle; parameters, readiness, marks and the other unit's inputs are as before. (That no operation and no
bytes are kept when it has returned is the model's choice, log 12.) -/
def Obligations.PushFormCompletesWithItsWireTrace : Prop :=
  ∀ (i : Instr) (op : SrOp) (bytes : List Byte) (s : State), pushForm i = some (op, bytes) → s.srUsable →
    ∃ (t u : State) (rests : List Bool), exec i s = .next t ∧ srResumeTimes (delaysOf op bytes) t = .next u ∧
      rests.length = bytes.length ∧
      u.hist = s.hist ++ pushTrace s.params bytes rests ++ latchTrace s.params op ∧
      u.outcomes = s.outcomes ++ [.ok .unit] ∧
      u.srPc = .idle ∧ u.srOp = none ∧ u.srBytes = [] ∧ u.srReady = true ∧
      u.params = s.params ∧ u.faults = s.faults ∧ u.refused = s.refused ∧ u.host = s.host ∧ u.bus = s.bus

/-- R175 to R182, R186: a push form, presented to an idle, initialised SR unit with CLK and LATCH low, leaves CLK and
LATCH low when it completes; the shift stage holds the bits pushed, the last at SHIFT[0] and the old content
above; the storage register holds the shift stage for the transfer forms, and is as it was for the others. -/
def Obligations.PushFormMovesTheChain : Prop :=
  ∀ (i : Instr) (op : SrOp) (bytes : List Byte) (s : State), pushForm i = some (op, bytes) → s.srUsable →
    s.atRest → s.shift.length = 8 * s.params.nChips →
    ∃ t u : State, exec i s = .next t ∧ srResumeTimes (delaysOf op bytes) t = .next u ∧
      u.atRest ∧
      u.shift = shiftedBits s.params.nChips (serialBits bytes) s.shift ∧
      u.store = (if op.latches then u.shift else s.store) ∧
      ((u.lines.data = .zero ∧ bytes ≠ []) ∨
        u.lines.data = (bytes.getLast?.map fun v => Level.ofBool (v.getLsbD 0)).getD s.lines.data)

/-- R84: from rest, after a push form has pushed as many bytes as there are chips, chip k of the shift stage holds byte
N-1-k of the list, the first byte in the chip farthest from DATA; for the transfer forms so does the storage
register. -/
def Obligations.CascadeByteOrder : Prop :=
  ∀ (i : Instr) (op : SrOp) (bytes : List Byte) (s : State), pushForm i = some (op, bytes) → s.srUsable →
    s.atRest → s.shift.length = 8 * s.params.nChips → bytes.length = s.params.nChips →
    ∃ t u : State, exec i s = .next t ∧ srResumeTimes (delaysOf op bytes) t = .next u ∧
      ∀ (k : Nat) (v : Byte), k < s.params.nChips → bytes[s.params.nChips - 1 - k]? = some v →
        chipBits u.shift k = byteLevels v ∧ (op.latches = true → chipBits u.store k = byteLevels v)

/-- R175, R178, R180 to R182 for one chip: from rest, SR.PUSH_BYTE v ends with SHIFT = v and STORE as it was;
SR.PUSH_BYTE_AND_TRANSFER v and SR.SET_OUTPUTS v with SHIFT = STORE = v, SR.CLEAR_OUTPUTS with 0x00,
SR.SET_ALL_OUTPUTS with 0xFF. -/
def Obligations.SingleChipEndsWithTheByte : Prop :=
  ∀ (i : Instr) (op : SrOp) (v : Byte) (s : State), pushForm i = some (op, [v]) → s.srUsable → s.atRest →
    s.params.nChips = 1 → s.shift.length = 8 →
    ∃ t u : State, exec i s = .next t ∧ srResumeTimes (delaysOf op [v]) t = .next u ∧
      u.shift = byteLevels v ∧ u.store = if op.latches then byteLevels v else s.store

/-- R185: a push form that completes from rest records 8m rising and 8m falling edges on CLK, one of each on LATCH for
the transfer forms and none for the others, no edge on LATCH before the last CLK falling edge, and 8m SETUP, 8m
HIGH and no or one LATCH delays. -/
def Obligations.EventCountLaw : Prop :=
  ∀ (i : Instr) (op : SrOp) (bytes : List Byte) (s : State), pushForm i = some (op, bytes) → s.srUsable →
    s.atRest → ∃ (t u : State) (push latch : List Event), exec i s = .next t ∧
      srResumeTimes (delaysOf op bytes) t = .next u ∧ u.hist = s.hist ++ (push ++ latch) ∧
      edgeCount .clk true .zero push = 8 * bytes.length ∧ edgeCount .clk false .zero push = 8 * bytes.length ∧
      edgeCount .latch true .zero push = 0 ∧ edgeCount .latch false .zero push = 0 ∧
      edgeCount .clk true .zero latch = 0 ∧ edgeCount .clk false .zero latch = 0 ∧
      edgeCount .latch true .zero latch = (if op.latches then 1 else 0) ∧
      edgeCount .latch false .zero latch = (if op.latches then 1 else 0) ∧
      delayCount .setup (push ++ latch) = 8 * bytes.length ∧ delayCount .high (push ++ latch) = 8 * bytes.length ∧
      delayCount .latch (push ++ latch) = (if op.latches then 1 else 0) ∧ delayCount .init (push ++ latch) = 0

/-- R184: in every step, of any state, STORE changes only if the step drives LATCH to 1 from a level other than 1, and
then it becomes the shift stage of that moment; in a push form that pushes m bytes, from any state that admits it,
STORE is as it was until all 8m clock pulses are over, however far the operation has run. -/
def Obligations.AtomicVisibleUpdate : Prop :=
  (∀ s t : State, step s = .next t → t.store ≠ s.store →
    s.lines.latch ≠ .one ∧ t.lines.latch = .one ∧ t.store = t.shift ∧
    ∃ pre post : List Event, t.hist = s.hist ++ pre ++ .lineSet .latch true :: post) ∧
  ∀ (i : Instr) (op : SrOp) (bytes : List Byte) (s t u : State) (k : Nat), pushForm i = some (op, bytes) →
    s.srUsable → exec i s = .next t → k < 16 * bytes.length → srResumeTimes k t = .next u → u.store = s.store

/-- R280: a cancellation at a suspension point records `Cancel(sr_pc)` and makes the SR unit idle; the lines keep their
levels, nothing is shifted or latched, and the operation reports no value, only where it stopped (R272); no operation
of another unit ever leaves a suspension point. That cancelling an idle unit changes nothing is the model's reading of
R279 (log 18). -/
def Obligations.CancelStopsAtTheSuspensionPoint : Prop :=
  (∀ s : State, s.srPc ≠ .idle →
    let c := s.cancelSr
    c.srPc = .idle ∧ c.hist = s.hist ++ [.cancel s.srPc] ∧ c.outcomes = s.outcomes ++ [.cancelled s.srPc] ∧
    c.lines = s.lines ∧ c.shift = s.shift ∧ c.store = s.store ∧ c.srReady = s.srReady ∧ c.params = s.params ∧
    c.faults = s.faults ∧ c.refused = s.refused ∧ c.host = s.host ∧ c.bus = s.bus ∧ c.draws = s.draws) ∧
  (∀ s : State, s.srPc = .idle → s.cancelSr = s) ∧
  ∀ (i : Instr) (s t : State), isSr i = false → exec i s = .next t → t.srPc = s.srPc

/-- R281: what a cancellation leaves, by position, after a push form or SR.INIT started at rest has run any number of
delays: the levels of the lines, how many bits are shifted, whether STORE has changed, and `sr_ready`. -/
def Obligations.StateLeftByCancellation : Prop :=
  (∀ (i : Instr) (op : SrOp) (bytes : List Byte) (s t u : State) (k : Nat), pushForm i = some (op, bytes) →
    s.srUsable → s.atRest → s.shift.length = 8 * s.params.nChips → exec i s = .next t →
    srResumeTimes k t = .next u →
    let c := u.cancelSr
    let shifted := fun n => shiftedBits s.params.nChips ((serialBits bytes).take n) s.shift
    match u.srPc with
    | .idle => True
    | .sInit => False
    | .sSetup j b => c.lines.clk = .zero ∧ c.lines.latch = .zero ∧
        (bytes[j]?.map fun v => Level.ofBool (v.getLsbD b)) = some c.lines.data ∧
        c.shift = shifted (8 * j + (7 - b.val)) ∧ c.store = s.store ∧ c.srReady = true
    | .sHigh j b => c.lines.clk = .one ∧ c.lines.latch = .zero ∧
        (bytes[j]?.map fun v => Level.ofBool (v.getLsbD b)) = some c.lines.data ∧
        c.shift = shifted (8 * j + (8 - b.val)) ∧ c.store = s.store ∧ c.srReady = true
    | .sLatch => c.lines.clk = .zero ∧ c.lines.latch = .one ∧ c.shift = shifted (8 * bytes.length) ∧
        c.store = c.shift ∧ c.srReady = true ∧
        ((c.lines.data = .zero ∧ bytes ≠ []) ∨
          c.lines.data = (bytes.getLast?.map fun v => Level.ofBool (v.getLsbD 0)).getD s.lines.data)) ∧
  ∀ s t : State, s.srPc = .idle → exec .srInit s = .next t →
    t.cancelSr.lines = ⟨.zero, .zero, .zero⟩ ∧ t.cancelSr.shift = s.shift ∧ t.cancelSr.store = s.store ∧
    t.cancelSr.srReady = false

/-- R121, R180 to R182: SR.SET_OUTPUTS v, SR.CLEAR_OUTPUTS and SR.SET_ALL_OUTPUTS end in the very state in which
SR.PUSH_BYTE_AND_TRANSFER of v, 0x00 and 0xFF ends, from any state that admits them. (That the two runs draw alike, so that
DATA, events and draws agree, rests on the model's choice that a free value depends on the count of draws alone, log 6, for
lines at X log 7; R173 lets two runs of the hardware draw differently. That neither keeps an operation or bytes when it has
returned is the model's choice too, log 12.) -/
def Obligations.AliasesEndAsPushByteAndTransfer : Prop :=
  ∀ (v : Byte) (i : Instr) (s : State), s.srUsable →
    i = .srSetOutputs v ∨ (i = .srClearOutputs ∧ v = 0x00#8) ∨ (i = .srSetAllOutputs ∧ v = 0xFF#8) →
    ∃ t t' u : State, exec i s = .next t ∧ exec (.srPushByteAndTransfer v) s = .next t' ∧
      srResumeTimes 17 t = .next u ∧ srResumeTimes 17 t' = .next u

/-- R121: SR.PUSH_BYTES_AND_TRANSFER L ends, but for the report of one operation where there are two, as SR.PUSH_BYTES L
and then SR.TRANSFER, each run to its end, do. (That the two runs draw alike, so that DATA, events and draws agree, rests on
the model's choice that a free value depends on the count of draws alone, log 6, for lines at X log 7; R173 lets two runs of
the hardware draw differently. That no operation and no bytes are kept at IDLE is the model's choice too, log 12.) -/
def Obligations.CompositeIsPushThenTransfer : Prop :=
  ∀ (bytes : List Byte) (s : State), s.srUsable →
    ∃ t u t1 u1 t2 u2 : State, exec (.srPushBytesAndTransfer bytes) s = .next t ∧
      srResumeTimes (16 * bytes.length + 1) t = .next u ∧
      exec (.srPushBytes bytes) s = .next t1 ∧ srResumeTimes (16 * bytes.length) t1 = .next u1 ∧
      exec .srTransfer u1 = .next t2 ∧ srResumeTimes 1 t2 = .next u2 ∧
      u2 = { u with outcomes := u.outcomes ++ [.ok .unit] }

/-- R311, R186: from rest, a transfer form that pushes at least N bytes leaves every bit of the storage register known. -/
def Obligations.FullChainIsKnownAfterTheLatch : Prop :=
  ∀ (i : Instr) (op : SrOp) (bytes : List Byte) (s : State), pushForm i = some (op, bytes) → s.srUsable →
    s.atRest → s.shift.length = 8 * s.params.nChips → op.latches = true → s.params.nChips ≤ bytes.length →
    ∃ t u : State, exec i s = .next t ∧ srResumeTimes (delaysOf op bytes) t = .next u ∧
      ∀ b ∈ u.store, b ≠ Level.x

/-- R149, R143, R50: from rest, after a transfer form has pushed as many bytes as there are chips, each chip whose byte is
what SEG.ENCODE reports for a digit lights exactly that digit's segments of R143's table, the decimal point with
`dot`, under the default table of the parameter (log 2). -/
def Obligations.LatchedDigitLightsItsSegments : Prop :=
  ∀ (i : Instr) (op : SrOp) (bytes : List Byte) (s : State), pushForm i = some (op, bytes) → s.srUsable →
    s.atRest → s.shift.length = 8 * s.params.nChips → bytes.length = s.params.nChips → op.latches = true →
    s.params.segTable = defaultParams.segTable →
    ∃ t u : State, exec i s = .next t ∧ srResumeTimes (delaysOf op bytes) t = .next u ∧
      ∀ (k : Nat) (v : Byte) (decimal : Byte) (dot on : Bool), k < s.params.nChips →
        bytes[s.params.nChips - 1 - k]? = some v →
        exec (.segEncode decimal dot on) s = .next { s with outcomes := s.outcomes ++ [.ok (.u8 v)] } →
        ∀ seg : Segment, u.segmentLine k seg =
          Level.ofBool (if seg = .dp then dot else on && (litSegments decimal.toNat).contains seg)

/-- R34, R59: a HOST that presents a push form and waits for it, as a caller that serializes its calls does, has it
completed, reported and nothing marked after the presenting step, one step a delay, and one step in which it sees the
unit idle. (The steps are those of the model's schedule, log 3.) -/
def Obligations.SerializedCallCompletes : Prop :=
  ∀ (i : Instr) (op : SrOp) (bytes : List Byte) (s : State) (rest : List HostAct),
    pushForm i = some (op, bytes) → s.srUsable → s.host = .call i.word i.oob :: .await :: rest →
    ∃ u : State, Host.Core.run Sys2Proof.core (delaysOf op bytes + 2) s = .next u ∧
      u.host = rest ∧ u.srPc = .idle ∧ u.outcomes = s.outcomes ++ [.ok .unit] ∧ u.faults = s.faults ∧
      u.refused = s.refused

/-! ## RTC -/

/-- R81: the oracle's answer to a read of n bytes has exactly n bytes or is an error; an answer given beforehand, of
that length, is the one, and each transaction uses up one (the list of answers is the model's, log 5). -/
def Obligations.OracleAnswersFitTheTransaction : Prop :=
  (∀ (s : State) (n : Nat) (b : List Byte), s.readReply n = .ok b → b.length = n) ∧
  (∀ (s : State) (b : List Byte) (rest : List BusAnswer), s.bus = .ok b :: rest →
    s.readReply b.length = .ok b ∧ s.writeReply = .ok) ∧
  (∀ (s : State) (n : Nat) (e : BusError) (rest : List BusAnswer), s.bus = .err e :: rest →
    s.readReply n = .err e ∧ s.writeReply = .err e) ∧
  ∀ (i : Instr) (s t : State), isRtc i = true → i.wellFormed = true → exec i s = .next t →
    t.bus = s.bus.tail ∧ t.draws = s.draws + 1

/-- R230: the word 0x2000 is RTC.INIT, which makes the one 7-byte read of the time block, records it, and reports
whether it succeeded, whatever the bytes; nothing else of the driver or the block changes. -/
def Obligations.RtcInitProbesOnce : Prop :=
  decode 0x2000#16 .absent = .ok .rtcInit ∧
  ∀ s : State, ∃ t : State, exec .rtcInit s = .next t ∧
    t.hist = s.hist ++ [.busWR 0x68#7 [0x00#8] 7 (s.readReply 7)] ∧
    t.outcomes = s.outcomes ++ [match s.readReply 7 with
      | .ok _ => .ok (.bool true)
      | .err _ => .ok (.bool false)] ∧
    t.refused = s.refused ∧ s.sameDriver t

/-- R240, R241: the word 0x2100 is RTC.GET_DATETIME, which makes the one 7-byte read, records it, and reports the six
fields, each masked and then decoded, unchecked, at the places the layout gives, the year on 2000, or the bus error;
nothing else changes. -/
def Obligations.GetDatetimeDecodesTheBlock : Prop :=
  decode 0x2100#16 .absent = .ok .rtcGetDatetime ∧
  (∀ (s : State) (b0 b1 b2 b3 b4 b5 b6 : Byte), s.readReply 7 = .ok [b0, b1, b2, b3, b4, b5, b6] →
    let f := fun (b m : Byte) => (((b &&& m) &&& 0xF0#8) >>> 4).toNat * 10 + ((b &&& m) &&& 0x0F#8).toNat
    let m := s.params.masks
    ∃ t : State, exec .rtcGetDatetime s = .next t ∧
      t.hist = s.hist ++ [.busWR 0x68#7 [0x00#8] 7 (.ok [b0, b1, b2, b3, b4, b5, b6])] ∧
      t.outcomes = s.outcomes ++ [.ok (.dateTime (match s.params.layout with
        | .doc6 => ⟨2000 + f b5 m.year, f b4 m.month, f b3 m.day, f b2 m.hour, f b1 m.min, f b0 m.sec⟩
        | .ds3231 => ⟨2000 + f b6 m.year, f b5 m.month, f b4 m.day, f b2 m.hour, f b1 m.min, f b0 m.sec⟩))] ∧
      t.refused = s.refused ∧ s.sameDriver t) ∧
  ∀ (s : State) (e : BusError), s.readReply 7 = .err e → ∃ t : State, exec .rtcGetDatetime s = .next t ∧
    t.hist = s.hist ++ [.busWR 0x68#7 [0x00#8] 7 (.err e)] ∧ t.outcomes = s.outcomes ++ [.bus e] ∧
    t.refused = s.refused ∧ s.sameDriver t

/-- R242: the word 0x2200 with a record is RTC.SET_DATETIME. With every field in range it makes one write of the BCD
bytes from register 0x00 on, records it, and reports Ok or the bus error; out of range it sets the refusal mark, with
no event. Nothing else changes. `w` is the drawn day-of-week byte of the DS3231 layout. -/
def Obligations.SetDatetimeWritesOrRefuses : Prop :=
  ∀ (d : DateTime) (s : State), decode 0x2200#16 (.record d) = .ok (.rtcSetDatetime d) ∧
    let ok := 2000 ≤ d.year ∧ d.year ≤ 2099 ∧ 1 ≤ d.month ∧ d.month ≤ 12 ∧ 1 ≤ d.day ∧ d.day ≤ 31 ∧
      d.hour ≤ 23 ∧ d.minute ≤ 59 ∧ d.second ≤ 59
    let e := fun n => BitVec.ofNat 8 (n / 10 * 16 + n % 10)
    (ok → ∃ (w : Byte) (t : State), exec (.rtcSetDatetime d) s = .next t ∧
      t.hist = s.hist ++ [.busW 0x68#7 (0x00#8 :: match s.params.layout with
        | .doc6 => [e d.second, e d.minute, e d.hour, e d.day, e d.month, e (d.year - 2000)]
        | .ds3231 => [e d.second, e d.minute, e d.hour, w, e d.day, e d.month, e (d.year - 2000)]) s.writeReply] ∧
      t.outcomes = s.outcomes ++ [match s.writeReply with
        | .ok => .ok .written
        | .err e => .bus e] ∧
      t.refused = s.refused ∧ s.sameDriver t) ∧
    (¬ ok → exec (.rtcSetDatetime d) s = .next { s with
      refused := true
      outcomes := s.outcomes ++ [.refusedOperand 0x2200#16 (.datetimeRange d)] })

/-- R244: of every byte RTC.SET_DATETIME writes, in either layout: the hour byte has bits 7 and 6 clear, the month byte
bits 7 to 5, the second and minute bytes bit 7, the day byte bits 7 and 6. -/
def Obligations.WrittenFlagBitsAreClear : Prop :=
  ∀ (d : DateTime) (s t : State) (a : BitVec 7) (r : WriteReply) (reg : Byte) (b : List Byte),
    exec (.rtcSetDatetime d) s = .next t → t.hist = s.hist ++ [.busW a (reg :: b) r] →
    let ix := fieldIndex s.params.layout
    byteAt b ix.hour &&& 0xC0#8 = 0#8 ∧ byteAt b ix.month &&& 0xE0#8 = 0#8 ∧
    byteAt b ix.second &&& 0x80#8 = 0#8 ∧ byteAt b ix.minute &&& 0x80#8 = 0#8 ∧ byteAt b ix.day &&& 0xC0#8 = 0#8

/-- R248: under the default masks, if the oracle answers RTC.GET_DATETIME with the bytes RTC.SET_DATETIME T wrote (and any
seventh byte under DOC6, any byte 3 under DS3231_7), the report is T. -/
def Obligations.SetThenGetGivesTheDateBack : Prop :=
  ∀ (d : DateTime) (s t : State) (a : BitVec 7) (r : WriteReply) (reg x : Byte) (b : List Byte),
    exec (.rtcSetDatetime d) s = .next t → t.hist = s.hist ++ [.busW a (reg :: b) r] →
    s.params.masks = defaultParams.masks →
    ∀ (s' : State) (rest : List BusAnswer), s'.params = s.params →
      s'.bus = .ok (match s.params.layout with
        | .doc6 => b ++ [x]
        | .ds3231 => b.set 3 x) :: rest →
      ∃ t' : State, exec .rtcGetDatetime s' = .next t' ∧ t'.outcomes = s'.outcomes ++ [.ok (.dateTime d)]

/-- R245: the word 0x2300 is RTC.GET_TEMPERATURE, which makes the one 2-byte read at 0x11, records it, and reports
`{hi, lo[7:6]}` as a 10-bit two's complement count of quarter degrees, or the bus error; nothing else changes. -/
def Obligations.GetTemperatureIsTenBitSigned : Prop :=
  decode 0x2300#16 .absent = .ok .rtcGetTemperature ∧
  (∀ (s : State) (hi lo : Byte), s.readReply 2 = .ok [hi, lo] → ∃ (q : Int) (t : State),
    q = (if hi.toNat < 128 then (hi.toNat : Int) else hi.toNat - 256) * 4 + (lo.toNat / 64 : Nat) ∧
    -512 ≤ q ∧ q ≤ 511 ∧ exec .rtcGetTemperature s = .next t ∧
    t.hist = s.hist ++ [.busWR 0x68#7 [0x11#8] 2 (.ok [hi, lo])] ∧
    t.outcomes = s.outcomes ++ [.ok (.quarterDegrees q)] ∧ t.refused = s.refused ∧ s.sameDriver t) ∧
  ∀ (s : State) (e : BusError), s.readReply 2 = .err e → ∃ t : State, exec .rtcGetTemperature s = .next t ∧
    t.hist = s.hist ++ [.busWR 0x68#7 [0x11#8] 2 (.err e)] ∧ t.outcomes = s.outcomes ++ [.bus e] ∧
    t.refused = s.refused ∧ s.sameDriver t

/-- R246: the word 0x2400 is RTC.IS_BUSY, which makes the one 1-byte read at 0x0F, records it, and reports bit 2 of the
byte, or the bus error; nothing else changes. -/
def Obligations.IsBusyReportsBitTwo : Prop :=
  decode 0x2400#16 .absent = .ok .rtcIsBusy ∧
  (∀ (s : State) (st : Byte), s.readReply 1 = .ok [st] → ∃ t : State, exec .rtcIsBusy s = .next t ∧
    t.hist = s.hist ++ [.busWR 0x68#7 [0x0F#8] 1 (.ok [st])] ∧
    t.outcomes = s.outcomes ++ [.ok (.bool (decide (st.toNat / 4 % 2 = 1)))] ∧
    t.refused = s.refused ∧ s.sameDriver t) ∧
  ∀ (s : State) (e : BusError), s.readReply 1 = .err e → ∃ t : State, exec .rtcIsBusy s = .next t ∧
    t.hist = s.hist ++ [.busWR 0x68#7 [0x0F#8] 1 (.err e)] ∧ t.outcomes = s.outcomes ++ [.bus e] ∧
    t.refused = s.refused ∧ s.sameDriver t

/-- R247: every RTC operation makes exactly one transaction, whether it succeeds or fails, but for a refused
RTC.SET_DATETIME, which makes none. -/
def Obligations.OneTransactionPerRtcOperation : Prop :=
  ∀ (i : Instr) (s : State), isRtc i = true → ∃ t : State, exec i s = .next t ∧
    (if i.wellFormed then ∃ e : Event, isBusEvent e = true ∧ t.hist = s.hist ++ [e] ∧ t.refused = s.refused
     else t.hist = s.hist ∧ t.refused = true)

/-- R75: in every step, of any state, whatever bus transaction is made goes to device 0x68, and it is a read of the
registers 0x00 to 0x06, of 0x0F, or of 0x11 and 0x12, or a write from 0x00 on that reaches no further than 0x06. -/
def Obligations.OnlyTheseRegistersAreReached : Prop :=
  ∀ s t : State, step s = .next t → ∃ evs : List Event, t.hist = s.hist ++ evs ∧
    ∀ e ∈ evs, isBusEvent e = true →
      (∃ (reg : Byte) (n : Nat) (r : ReadReply), e = .busWR 0x68#7 [reg] n r ∧
        ((reg = 0x00#8 ∧ n = 7) ∨ (reg = 0x0F#8 ∧ n = 1) ∨ (reg = 0x11#8 ∧ n = 2))) ∨
      ∃ (bytes : List Byte) (r : WriteReply), e = .busW 0x68#7 (0x00#8 :: bytes) r ∧
        bytes.length = (match s.params.layout with
          | .doc6 => 6
          | .ds3231 => 7)

/-! ## The machine -/

/-- R56: the power-up state of a block with any parameters, with which the machine's reset state agrees at the default
ones (00_scope.md R6), and what SR.INIT makes of it: lines 0, ready, idle, SHIFT and STORE as they were. -/
def Obligations.PowerUpState : Prop :=
  (∀ p : Params, let s := State.powerUp p
    s.lines = ⟨.x, .x, .x⟩ ∧ s.srReady = false ∧ s.srPc = .idle ∧ s.srBytes = [] ∧
    s.shift.length = 8 * p.nChips ∧ (∀ b ∈ s.shift, b = Level.x) ∧
    s.store.length = 8 * p.nChips ∧ (∀ b ∈ s.store, b = Level.x) ∧
    s.hist = [] ∧ s.faults = ⟨false, false⟩ ∧ s.refused = false ∧
    ∃ t u : State, exec .srInit s = .next t ∧ srResumeTimes 1 t = .next u ∧
      u.lines = ⟨.zero, .zero, .zero⟩ ∧ u.srReady = true ∧ u.srPc = .idle ∧ u.shift = s.shift ∧ u.store = s.store) ∧
  State.reset = State.powerUp defaultParams ∧ rtcAddr = 0x68#7

/-- The invariant holds at reset, and at the power-up of every block that may be built (R56, and R6, R144 and R323 for the
configuration). That no operation is kept at IDLE is the model's choice, log 12; that reset's configuration is admissible
rests on the presumed 100 ns that the chips need by default, log 31. -/
def Obligations.InvariantAtReset : Prop :=
  State.reset.Inv ∧ ∀ p : Params, p.admissible = true → (State.powerUp p).Inv

/-- R6, R144, R323 with the ruling U25: a block is built, in its power-up state, of every configuration with at least one
chip, a table that keeps rows 0, 1 and 8 and bit 5 clear, and delays no shorter than the chips need; every other
configuration is refused; and whatever has run since, the digits 0, 1 and 8 show the source's patterns. (That the chips'
needs are numbers of the configuration, and that a refused configuration gives no machine, is the model's choice, log 31.) -/
def Obligations.OnlyAdmissibleConfigurationsAreBuilt : Prop :=
  (∀ (p : Params) (s : State), State.configure p = some s →
    s = State.powerUp p ∧ 1 ≤ p.nChips ∧ p.segTable.d0 = 0x5F#8 ∧ p.segTable.d1 = 0x0C#8 ∧ p.segTable.d8 = 0xDF#8 ∧
    p.segTable.noDot ∧ p.needs.setup ≤ p.tSetup ∧ p.needs.high ≤ p.tHigh ∧ p.needs.latch ≤ p.tLatch) ∧
  (∀ p : Params, p.nChips = 0 ∨ p.segTable.d0 ≠ 0x5F#8 ∨ p.segTable.d1 ≠ 0x0C#8 ∨ p.segTable.d8 ≠ 0xDF#8 ∨
    ¬ p.segTable.noDot ∨ p.tSetup < p.needs.setup ∨ p.tHigh < p.needs.high ∨ p.tLatch < p.needs.latch →
    State.configure p = none) ∧
  (∀ p : Params, 1 ≤ p.nChips → p.segTable.d0 = 0x5F#8 → p.segTable.d1 = 0x0C#8 → p.segTable.d8 = 0xDF#8 →
    p.segTable.noDot → p.needs.setup ≤ p.tSetup → p.needs.high ≤ p.tHigh → p.needs.latch ≤ p.tLatch →
    State.configure p = some (State.powerUp p)) ∧
  ∀ (s : State) (decimal pattern : Byte), s.Inv →
    (decimal, pattern) ∈ [(0#8, 0x5F#8), (1#8, 0x0C#8), (8#8, 0xDF#8)] →
    exec (.segEncode decimal false true) s = .next { s with outcomes := s.outcomes ++ [.ok (.u8 pattern)] }

/-- Every step keeps the invariant: the configuration is one a block may have, the chain has 8·N bits in both registers,
no line is X once the SR unit is initialised or running, and the sequencer's position fits the operation, its bytes and
the lines (R6, R144, R47, R58, R37, R183). That no operation and no bytes are kept at IDLE is the model's choice
(log 12). -/
def Obligations.EveryStepKeepsTheInvariant : Prop :=
  ∀ s t : State, s.Inv → step s = .next t → t.Inv

/-- From a state that meets the invariant every step answers a next state: the machine's one fault belongs to states no
run reaches (log 14). -/
def Obligations.NoStepStopsUnderTheInvariant : Prop :=
  ∀ s : State, s.Inv → ∃ t : State, step s = .next t

/-- R42, R44, R40, R61: no step clears a fault bit or the refusal mark, takes anything out of the history or out of what
was reported, or changes the parameters. -/
def Obligations.MarksAndHistoryOnlyGrow : Prop :=
  ∀ s t : State, step s = .next t →
    (s.faults.srNotInitialised = true → t.faults.srNotInitialised = true) ∧
    (s.faults.concurrentCall = true → t.faults.concurrentCall = true) ∧
    (s.refused = true → t.refused = true) ∧
    s.hist <+: t.hist ∧ s.outcomes <+: t.outcomes ∧ t.params = s.params

/-- R285, R273: only SR operations write lines and wait, only RTC operations use the bus, SEG and BCD operations make no
event, and no operation but an RTC one reports a bus error. -/
def Obligations.OnlyOwnersUseLinesAndBus : Prop :=
  (∀ (i : Instr) (s t : State), exec i s = .next t → ∃ (evs : List Event) (o : List OpOutcome),
    t.hist = s.hist ++ evs ∧ t.outcomes = s.outcomes ++ o ∧
    (∀ e ∈ evs, (isSrEvent e = true ∧ isSr i = true) ∨ (isBusEvent e = true ∧ isRtc i = true)) ∧
    ∀ e : BusError, .bus e ∈ o → isRtc i = true ∧ i ≠ .rtcInit) ∧
  ∀ s t : State, srResume s = .next t → ∃ (evs : List Event) (o : List OpOutcome),
    t.hist = s.hist ++ evs ∧ (∀ e ∈ evs, isSrEvent e = true) ∧ t.outcomes = s.outcomes ++ o ∧
    ∀ e : BusError, .bus e ∉ o

/-- R15, R39: the drivers share no state but the model's count of draws. Operations of the other units leave all of the SR
driver and the chain as they were; SR operations and the sequencer leave the list of the oracle's coming answers as it
was (the count they draw from is shared, so past that list the next free answer may be another, logs 5 and 6); and what
an RTC operation reports and records is the same from any two states with the same parameters, list and count, whatever
the SR unit is doing. That free answers depend on the count alone is the model's choice (logs 5 and 6): the last clause
is about the model, and no claim that two runs of the hardware get the same answers. -/
def Obligations.DriversShareNothing : Prop :=
  (∀ (i : Instr) (s t : State), isSr i = false → exec i s = .next t → s.sameDriver t) ∧
  (∀ (i : Instr) (s t : State), isSr i = true → exec i s = .next t → t.bus = s.bus ∧ t.refused = s.refused) ∧
  (∀ s t : State, srResume s = .next t → t.bus = s.bus ∧ t.refused = s.refused ∧ t.faults = s.faults) ∧
  ∀ (i : Instr) (s s' : State), isRtc i = true → s.params = s'.params → s.bus = s'.bus → s.draws = s'.draws →
    ∃ (t t' : State) (evs : List Event) (o : List OpOutcome), exec i s = .next t ∧ exec i s' = .next t' ∧
      t.hist = s.hist ++ evs ∧ t'.hist = s'.hist ++ evs ∧ t.outcomes = s.outcomes ++ o ∧
      t'.outcomes = s'.outcomes ++ o
end

