-- ==== Sys2Proof/Laws/Decode.lean ====
section
/-! SUPPORT. Operation words as bits: what the fields of a word made of two bytes are, and which row it selects. -/

namespace Sys2Proof

/-- Bit `b` of a word made of two bytes. -/
theorem opWord_getLsbD (hi lo : Byte) (b : Nat) :
    (opWord hi lo).getLsbD b = if b < 8 then lo.getLsbD b else hi.getLsbD (b - 8) :=
  BitVec.getLsbD_append

/-- The immediate byte of a word made of two bytes is the second. -/
@[simp] theorem immByte_opWord (hi lo : Byte) : immByte (opWord hi lo) = lo := by
  apply BitVec.eq_of_getLsbD_eq
  intro b hb
  simp [immByte, opWord_getLsbD, hb]

/-- The unit of a word made of two bytes is the high nibble of the first. -/
@[simp] theorem unitField_opWord (hi lo : Byte) : unitField (opWord hi lo) = hi.extractLsb' 4 4 := by
  apply BitVec.eq_of_getLsbD_eq
  intro b hb
  simp [unitField, opWord_getLsbD, show ¬ 12 + b < 8 by omega, show 12 + b - 8 = 4 + b by omega]

/-- The function of a word made of two bytes is the low nibble of the first. -/
@[simp] theorem fnField_opWord (hi lo : Byte) : fnField (opWord hi lo) = hi.extractLsb' 0 4 := by
  apply BitVec.eq_of_getLsbD_eq
  intro b hb
  simp [fnField, opWord_getLsbD]

end Sys2Proof
end

