-- ==== Sys2Proof/Laws/Defaults.lean ====
section
/-! SUPPORT. What an admissible configuration is, in the terms of the spec. -/

namespace Sys2Proof

/-- An admissible table keeps rows 0, 1 and 8 and has no decimal-point bit, and only such a table is admissible. -/
theorem SegTable.admissible_iff (t : SegTable) : t.admissible = true ↔
    t.d0 = 0x5F#8 ∧ t.d1 = 0x0C#8 ∧ t.d8 = 0xDF#8 ∧ t.noDot := by
  simp [SegTable.admissible, SegTable.noDot, and_assoc]

/-- An admissible configuration has a chip, an admissible table, and delays no shorter than the chips need. -/
theorem Params.admissible_iff (p : Params) : p.admissible = true ↔
    1 ≤ p.nChips ∧ p.segTable.admissible = true ∧
      p.needs.setup ≤ p.tSetup ∧ p.needs.high ≤ p.tHigh ∧ p.needs.latch ≤ p.tLatch := by
  simp [Params.admissible, Params.delaysSuffice, and_assoc]

/-- A block is built of the admissible configurations only, in its power-up state. -/
theorem Machine.State.configure_eq_some {p : Params} {s : Machine.State} :
    Machine.State.configure p = some s ↔ p.admissible = true ∧ Machine.State.powerUp p = s := by
  simp [Machine.State.configure]

/-- Every other configuration is refused. -/
theorem Machine.State.configure_eq_none {p : Params} :
    Machine.State.configure p = none ↔ p.admissible = false := by
  simp [Machine.State.configure]

end Sys2Proof
end

