-- ==== Sys2Proof/Laws/State.lean ====
section
/-! SUPPORT. What each update of the state does to each field, so that no proof unfolds a record update. -/

namespace Sys2Proof.Machine

variable (s : State)

/-! ### State.record -/

@[simp] theorem State.record_params (e : Event) : (s.record e).params = s.params := rfl
@[simp] theorem State.record_lines (e : Event) : (s.record e).lines = s.lines := rfl
@[simp] theorem State.record_srReady (e : Event) : (s.record e).srReady = s.srReady := rfl
@[simp] theorem State.record_srPc (e : Event) : (s.record e).srPc = s.srPc := rfl
@[simp] theorem State.record_srOp (e : Event) : (s.record e).srOp = s.srOp := rfl
@[simp] theorem State.record_srBytes (e : Event) : (s.record e).srBytes = s.srBytes := rfl
@[simp] theorem State.record_shift (e : Event) : (s.record e).shift = s.shift := rfl
@[simp] theorem State.record_store (e : Event) : (s.record e).store = s.store := rfl
@[simp] theorem State.record_hist (e : Event) : (s.record e).hist = s.hist ++ [e] := rfl
@[simp] theorem State.record_faults (e : Event) : (s.record e).faults = s.faults := rfl
@[simp] theorem State.record_refused (e : Event) : (s.record e).refused = s.refused := rfl
@[simp] theorem State.record_outcomes (e : Event) : (s.record e).outcomes = s.outcomes := rfl
@[simp] theorem State.record_host (e : Event) : (s.record e).host = s.host := rfl
@[simp] theorem State.record_bus (e : Event) : (s.record e).bus = s.bus := rfl
@[simp] theorem State.record_draws (e : Event) : (s.record e).draws = s.draws := rfl

/-! ### State.deliver -/

@[simp] theorem State.deliver_params (o : OpOutcome) : (s.deliver o).params = s.params := rfl
@[simp] theorem State.deliver_lines (o : OpOutcome) : (s.deliver o).lines = s.lines := rfl
@[simp] theorem State.deliver_srReady (o : OpOutcome) : (s.deliver o).srReady = s.srReady := rfl
@[simp] theorem State.deliver_srPc (o : OpOutcome) : (s.deliver o).srPc = s.srPc := rfl
@[simp] theorem State.deliver_srOp (o : OpOutcome) : (s.deliver o).srOp = s.srOp := rfl
@[simp] theorem State.deliver_srBytes (o : OpOutcome) : (s.deliver o).srBytes = s.srBytes := rfl
@[simp] theorem State.deliver_shift (o : OpOutcome) : (s.deliver o).shift = s.shift := rfl
@[simp] theorem State.deliver_store (o : OpOutcome) : (s.deliver o).store = s.store := rfl
@[simp] theorem State.deliver_hist (o : OpOutcome) : (s.deliver o).hist = s.hist := rfl
@[simp] theorem State.deliver_faults (o : OpOutcome) : (s.deliver o).faults = s.faults := rfl
@[simp] theorem State.deliver_refused (o : OpOutcome) : (s.deliver o).refused = s.refused := rfl
@[simp] theorem State.deliver_outcomes (o : OpOutcome) : (s.deliver o).outcomes = s.outcomes ++ [o] := rfl
@[simp] theorem State.deliver_host (o : OpOutcome) : (s.deliver o).host = s.host := rfl
@[simp] theorem State.deliver_bus (o : OpOutcome) : (s.deliver o).bus = s.bus := rfl
@[simp] theorem State.deliver_draws (o : OpOutcome) : (s.deliver o).draws = s.draws := rfl

/-! ### State.draw -/

@[simp] theorem State.draw_params : (s.draw).params = s.params := rfl
@[simp] theorem State.draw_lines : (s.draw).lines = s.lines := rfl
@[simp] theorem State.draw_srReady : (s.draw).srReady = s.srReady := rfl
@[simp] theorem State.draw_srPc : (s.draw).srPc = s.srPc := rfl
@[simp] theorem State.draw_srOp : (s.draw).srOp = s.srOp := rfl
@[simp] theorem State.draw_srBytes : (s.draw).srBytes = s.srBytes := rfl
@[simp] theorem State.draw_shift : (s.draw).shift = s.shift := rfl
@[simp] theorem State.draw_store : (s.draw).store = s.store := rfl
@[simp] theorem State.draw_hist : (s.draw).hist = s.hist := rfl
@[simp] theorem State.draw_faults : (s.draw).faults = s.faults := rfl
@[simp] theorem State.draw_refused : (s.draw).refused = s.refused := rfl
@[simp] theorem State.draw_outcomes : (s.draw).outcomes = s.outcomes := rfl
@[simp] theorem State.draw_host : (s.draw).host = s.host := rfl
@[simp] theorem State.draw_bus : (s.draw).bus = s.bus := rfl
@[simp] theorem State.draw_draws : (s.draw).draws = s.draws + 1 := rfl

/-! ### State.setReady -/

@[simp] theorem State.setReady_params (b : Bool) : (s.setReady b).params = s.params := rfl
@[simp] theorem State.setReady_lines (b : Bool) : (s.setReady b).lines = s.lines := rfl
@[simp] theorem State.setReady_srReady (b : Bool) : (s.setReady b).srReady = b := rfl
@[simp] theorem State.setReady_srPc (b : Bool) : (s.setReady b).srPc = s.srPc := rfl
@[simp] theorem State.setReady_srOp (b : Bool) : (s.setReady b).srOp = s.srOp := rfl
@[simp] theorem State.setReady_srBytes (b : Bool) : (s.setReady b).srBytes = s.srBytes := rfl
@[simp] theorem State.setReady_shift (b : Bool) : (s.setReady b).shift = s.shift := rfl
@[simp] theorem State.setReady_store (b : Bool) : (s.setReady b).store = s.store := rfl
@[simp] theorem State.setReady_hist (b : Bool) : (s.setReady b).hist = s.hist := rfl
@[simp] theorem State.setReady_faults (b : Bool) : (s.setReady b).faults = s.faults := rfl
@[simp] theorem State.setReady_refused (b : Bool) : (s.setReady b).refused = s.refused := rfl
@[simp] theorem State.setReady_outcomes (b : Bool) : (s.setReady b).outcomes = s.outcomes := rfl
@[simp] theorem State.setReady_host (b : Bool) : (s.setReady b).host = s.host := rfl
@[simp] theorem State.setReady_bus (b : Bool) : (s.setReady b).bus = s.bus := rfl
@[simp] theorem State.setReady_draws (b : Bool) : (s.setReady b).draws = s.draws := rfl

/-! ### State.goTo -/

@[simp] theorem State.goTo_params (p : SrPc) : (s.goTo p).params = s.params := rfl
@[simp] theorem State.goTo_lines (p : SrPc) : (s.goTo p).lines = s.lines := rfl
@[simp] theorem State.goTo_srReady (p : SrPc) : (s.goTo p).srReady = s.srReady := rfl
@[simp] theorem State.goTo_srPc (p : SrPc) : (s.goTo p).srPc = p := rfl
@[simp] theorem State.goTo_srOp (p : SrPc) : (s.goTo p).srOp = s.srOp := rfl
@[simp] theorem State.goTo_srBytes (p : SrPc) : (s.goTo p).srBytes = s.srBytes := rfl
@[simp] theorem State.goTo_shift (p : SrPc) : (s.goTo p).shift = s.shift := rfl
@[simp] theorem State.goTo_store (p : SrPc) : (s.goTo p).store = s.store := rfl
@[simp] theorem State.goTo_hist (p : SrPc) : (s.goTo p).hist = s.hist := rfl
@[simp] theorem State.goTo_faults (p : SrPc) : (s.goTo p).faults = s.faults := rfl
@[simp] theorem State.goTo_refused (p : SrPc) : (s.goTo p).refused = s.refused := rfl
@[simp] theorem State.goTo_outcomes (p : SrPc) : (s.goTo p).outcomes = s.outcomes := rfl
@[simp] theorem State.goTo_host (p : SrPc) : (s.goTo p).host = s.host := rfl
@[simp] theorem State.goTo_bus (p : SrPc) : (s.goTo p).bus = s.bus := rfl
@[simp] theorem State.goTo_draws (p : SrPc) : (s.goTo p).draws = s.draws := rfl

/-! ### State.begin -/

@[simp] theorem State.begin_params (op : SrOp) (bytes : List Byte) : (s.begin op bytes).params = s.params := rfl
@[simp] theorem State.begin_lines (op : SrOp) (bytes : List Byte) : (s.begin op bytes).lines = s.lines := rfl
@[simp] theorem State.begin_srReady (op : SrOp) (bytes : List Byte) : (s.begin op bytes).srReady = s.srReady := rfl
@[simp] theorem State.begin_srPc (op : SrOp) (bytes : List Byte) : (s.begin op bytes).srPc = s.srPc := rfl
@[simp] theorem State.begin_srOp (op : SrOp) (bytes : List Byte) : (s.begin op bytes).srOp = some op := rfl
@[simp] theorem State.begin_srBytes (op : SrOp) (bytes : List Byte) : (s.begin op bytes).srBytes = bytes := rfl
@[simp] theorem State.begin_shift (op : SrOp) (bytes : List Byte) : (s.begin op bytes).shift = s.shift := rfl
@[simp] theorem State.begin_store (op : SrOp) (bytes : List Byte) : (s.begin op bytes).store = s.store := rfl
@[simp] theorem State.begin_hist (op : SrOp) (bytes : List Byte) : (s.begin op bytes).hist = s.hist := rfl
@[simp] theorem State.begin_faults (op : SrOp) (bytes : List Byte) : (s.begin op bytes).faults = s.faults := rfl
@[simp] theorem State.begin_refused (op : SrOp) (bytes : List Byte) : (s.begin op bytes).refused = s.refused := rfl
@[simp] theorem State.begin_outcomes (op : SrOp) (bytes : List Byte) : (s.begin op bytes).outcomes = s.outcomes := rfl
@[simp] theorem State.begin_host (op : SrOp) (bytes : List Byte) : (s.begin op bytes).host = s.host := rfl
@[simp] theorem State.begin_bus (op : SrOp) (bytes : List Byte) : (s.begin op bytes).bus = s.bus := rfl
@[simp] theorem State.begin_draws (op : SrOp) (bytes : List Byte) : (s.begin op bytes).draws = s.draws := rfl

/-! ### State.goIdle -/

@[simp] theorem State.goIdle_params : (s.goIdle).params = s.params := rfl
@[simp] theorem State.goIdle_lines : (s.goIdle).lines = s.lines := rfl
@[simp] theorem State.goIdle_srReady : (s.goIdle).srReady = s.srReady := rfl
@[simp] theorem State.goIdle_srPc : (s.goIdle).srPc = .idle := rfl
@[simp] theorem State.goIdle_srOp : (s.goIdle).srOp = none := rfl
@[simp] theorem State.goIdle_srBytes : (s.goIdle).srBytes = [] := rfl
@[simp] theorem State.goIdle_shift : (s.goIdle).shift = s.shift := rfl
@[simp] theorem State.goIdle_store : (s.goIdle).store = s.store := rfl
@[simp] theorem State.goIdle_hist : (s.goIdle).hist = s.hist := rfl
@[simp] theorem State.goIdle_faults : (s.goIdle).faults = s.faults := rfl
@[simp] theorem State.goIdle_refused : (s.goIdle).refused = s.refused := rfl
@[simp] theorem State.goIdle_outcomes : (s.goIdle).outcomes = s.outcomes := rfl
@[simp] theorem State.goIdle_host : (s.goIdle).host = s.host := rfl
@[simp] theorem State.goIdle_bus : (s.goIdle).bus = s.bus := rfl
@[simp] theorem State.goIdle_draws : (s.goIdle).draws = s.draws := rfl

/-! ### State.popHost -/

@[simp] theorem State.popHost_params : (s.popHost).params = s.params := rfl
@[simp] theorem State.popHost_lines : (s.popHost).lines = s.lines := rfl
@[simp] theorem State.popHost_srReady : (s.popHost).srReady = s.srReady := rfl
@[simp] theorem State.popHost_srPc : (s.popHost).srPc = s.srPc := rfl
@[simp] theorem State.popHost_srOp : (s.popHost).srOp = s.srOp := rfl
@[simp] theorem State.popHost_srBytes : (s.popHost).srBytes = s.srBytes := rfl
@[simp] theorem State.popHost_shift : (s.popHost).shift = s.shift := rfl
@[simp] theorem State.popHost_store : (s.popHost).store = s.store := rfl
@[simp] theorem State.popHost_hist : (s.popHost).hist = s.hist := rfl
@[simp] theorem State.popHost_faults : (s.popHost).faults = s.faults := rfl
@[simp] theorem State.popHost_refused : (s.popHost).refused = s.refused := rfl
@[simp] theorem State.popHost_outcomes : (s.popHost).outcomes = s.outcomes := rfl
@[simp] theorem State.popHost_host : (s.popHost).host = s.host.tail := rfl
@[simp] theorem State.popHost_bus : (s.popHost).bus = s.bus := rfl
@[simp] theorem State.popHost_draws : (s.popHost).draws = s.draws := rfl

/-! ### State.setLevel -/

@[simp] theorem State.setLevel_params (l : Line) (v : Level) : (s.setLevel l v).params = s.params := rfl
@[simp] theorem State.setLevel_lines (l : Line) (v : Level) : (s.setLevel l v).lines = s.lines.set l v := rfl
@[simp] theorem State.setLevel_srReady (l : Line) (v : Level) : (s.setLevel l v).srReady = s.srReady := rfl
@[simp] theorem State.setLevel_srPc (l : Line) (v : Level) : (s.setLevel l v).srPc = s.srPc := rfl
@[simp] theorem State.setLevel_srOp (l : Line) (v : Level) : (s.setLevel l v).srOp = s.srOp := rfl
@[simp] theorem State.setLevel_srBytes (l : Line) (v : Level) : (s.setLevel l v).srBytes = s.srBytes := rfl
@[simp] theorem State.setLevel_shift (l : Line) (v : Level) : (s.setLevel l v).shift = s.shift := rfl
@[simp] theorem State.setLevel_store (l : Line) (v : Level) : (s.setLevel l v).store = s.store := rfl
@[simp] theorem State.setLevel_hist (l : Line) (v : Level) : (s.setLevel l v).hist = s.hist := rfl
@[simp] theorem State.setLevel_faults (l : Line) (v : Level) : (s.setLevel l v).faults = s.faults := rfl
@[simp] theorem State.setLevel_refused (l : Line) (v : Level) : (s.setLevel l v).refused = s.refused := rfl
@[simp] theorem State.setLevel_outcomes (l : Line) (v : Level) : (s.setLevel l v).outcomes = s.outcomes := rfl
@[simp] theorem State.setLevel_host (l : Line) (v : Level) : (s.setLevel l v).host = s.host := rfl
@[simp] theorem State.setLevel_bus (l : Line) (v : Level) : (s.setLevel l v).bus = s.bus := rfl
@[simp] theorem State.setLevel_draws (l : Line) (v : Level) : (s.setLevel l v).draws = s.draws := rfl

/-! ### State.setNotInitialised -/

@[simp] theorem State.setNotInitialised_params : (s.setNotInitialised).params = s.params := rfl
@[simp] theorem State.setNotInitialised_lines : (s.setNotInitialised).lines = s.lines := rfl
@[simp] theorem State.setNotInitialised_srReady : (s.setNotInitialised).srReady = s.srReady := rfl
@[simp] theorem State.setNotInitialised_srPc : (s.setNotInitialised).srPc = s.srPc := rfl
@[simp] theorem State.setNotInitialised_srOp : (s.setNotInitialised).srOp = s.srOp := rfl
@[simp] theorem State.setNotInitialised_srBytes : (s.setNotInitialised).srBytes = s.srBytes := rfl
@[simp] theorem State.setNotInitialised_shift : (s.setNotInitialised).shift = s.shift := rfl
@[simp] theorem State.setNotInitialised_store : (s.setNotInitialised).store = s.store := rfl
@[simp] theorem State.setNotInitialised_hist : (s.setNotInitialised).hist = s.hist := rfl
@[simp] theorem State.setNotInitialised_faults : (s.setNotInitialised).faults = { s.faults with srNotInitialised := true } := rfl
@[simp] theorem State.setNotInitialised_refused : (s.setNotInitialised).refused = s.refused := rfl
@[simp] theorem State.setNotInitialised_outcomes : (s.setNotInitialised).outcomes = s.outcomes := rfl
@[simp] theorem State.setNotInitialised_host : (s.setNotInitialised).host = s.host := rfl
@[simp] theorem State.setNotInitialised_bus : (s.setNotInitialised).bus = s.bus := rfl
@[simp] theorem State.setNotInitialised_draws : (s.setNotInitialised).draws = s.draws := rfl

/-! ### State.setConcurrent -/

@[simp] theorem State.setConcurrent_params : (s.setConcurrent).params = s.params := rfl
@[simp] theorem State.setConcurrent_lines : (s.setConcurrent).lines = s.lines := rfl
@[simp] theorem State.setConcurrent_srReady : (s.setConcurrent).srReady = s.srReady := rfl
@[simp] theorem State.setConcurrent_srPc : (s.setConcurrent).srPc = s.srPc := rfl
@[simp] theorem State.setConcurrent_srOp : (s.setConcurrent).srOp = s.srOp := rfl
@[simp] theorem State.setConcurrent_srBytes : (s.setConcurrent).srBytes = s.srBytes := rfl
@[simp] theorem State.setConcurrent_shift : (s.setConcurrent).shift = s.shift := rfl
@[simp] theorem State.setConcurrent_store : (s.setConcurrent).store = s.store := rfl
@[simp] theorem State.setConcurrent_hist : (s.setConcurrent).hist = s.hist := rfl
@[simp] theorem State.setConcurrent_faults : (s.setConcurrent).faults = { s.faults with concurrentCall := true } := rfl
@[simp] theorem State.setConcurrent_refused : (s.setConcurrent).refused = s.refused := rfl
@[simp] theorem State.setConcurrent_outcomes : (s.setConcurrent).outcomes = s.outcomes := rfl
@[simp] theorem State.setConcurrent_host : (s.setConcurrent).host = s.host := rfl
@[simp] theorem State.setConcurrent_bus : (s.setConcurrent).bus = s.bus := rfl
@[simp] theorem State.setConcurrent_draws : (s.setConcurrent).draws = s.draws := rfl

/-! ### State.setRefused -/

@[simp] theorem State.setRefused_params : (s.setRefused).params = s.params := rfl
@[simp] theorem State.setRefused_lines : (s.setRefused).lines = s.lines := rfl
@[simp] theorem State.setRefused_srReady : (s.setRefused).srReady = s.srReady := rfl
@[simp] theorem State.setRefused_srPc : (s.setRefused).srPc = s.srPc := rfl
@[simp] theorem State.setRefused_srOp : (s.setRefused).srOp = s.srOp := rfl
@[simp] theorem State.setRefused_srBytes : (s.setRefused).srBytes = s.srBytes := rfl
@[simp] theorem State.setRefused_shift : (s.setRefused).shift = s.shift := rfl
@[simp] theorem State.setRefused_store : (s.setRefused).store = s.store := rfl
@[simp] theorem State.setRefused_hist : (s.setRefused).hist = s.hist := rfl
@[simp] theorem State.setRefused_faults : (s.setRefused).faults = s.faults := rfl
@[simp] theorem State.setRefused_refused : (s.setRefused).refused = true := rfl
@[simp] theorem State.setRefused_outcomes : (s.setRefused).outcomes = s.outcomes := rfl
@[simp] theorem State.setRefused_host : (s.setRefused).host = s.host := rfl
@[simp] theorem State.setRefused_bus : (s.setRefused).bus = s.bus := rfl
@[simp] theorem State.setRefused_draws : (s.setRefused).draws = s.draws := rfl

/-! ### State.takeAnswer -/

@[simp] theorem State.takeAnswer_params : (s.takeAnswer).params = s.params := rfl
@[simp] theorem State.takeAnswer_lines : (s.takeAnswer).lines = s.lines := rfl
@[simp] theorem State.takeAnswer_srReady : (s.takeAnswer).srReady = s.srReady := rfl
@[simp] theorem State.takeAnswer_srPc : (s.takeAnswer).srPc = s.srPc := rfl
@[simp] theorem State.takeAnswer_srOp : (s.takeAnswer).srOp = s.srOp := rfl
@[simp] theorem State.takeAnswer_srBytes : (s.takeAnswer).srBytes = s.srBytes := rfl
@[simp] theorem State.takeAnswer_shift : (s.takeAnswer).shift = s.shift := rfl
@[simp] theorem State.takeAnswer_store : (s.takeAnswer).store = s.store := rfl
@[simp] theorem State.takeAnswer_hist : (s.takeAnswer).hist = s.hist := rfl
@[simp] theorem State.takeAnswer_faults : (s.takeAnswer).faults = s.faults := rfl
@[simp] theorem State.takeAnswer_refused : (s.takeAnswer).refused = s.refused := rfl
@[simp] theorem State.takeAnswer_outcomes : (s.takeAnswer).outcomes = s.outcomes := rfl
@[simp] theorem State.takeAnswer_host : (s.takeAnswer).host = s.host := rfl
@[simp] theorem State.takeAnswer_bus : (s.takeAnswer).bus = s.bus.tail := rfl
@[simp] theorem State.takeAnswer_draws : (s.takeAnswer).draws = s.draws + 1 := rfl

/-! ### State.withCall -/

@[simp] theorem State.withCall_params (w : OpWord) (oob : Oob) : (s.withCall w oob).params = s.params := rfl
@[simp] theorem State.withCall_lines (w : OpWord) (oob : Oob) : (s.withCall w oob).lines = s.lines := rfl
@[simp] theorem State.withCall_srReady (w : OpWord) (oob : Oob) : (s.withCall w oob).srReady = s.srReady := rfl
@[simp] theorem State.withCall_srPc (w : OpWord) (oob : Oob) : (s.withCall w oob).srPc = s.srPc := rfl
@[simp] theorem State.withCall_srOp (w : OpWord) (oob : Oob) : (s.withCall w oob).srOp = s.srOp := rfl
@[simp] theorem State.withCall_srBytes (w : OpWord) (oob : Oob) : (s.withCall w oob).srBytes = s.srBytes := rfl
@[simp] theorem State.withCall_shift (w : OpWord) (oob : Oob) : (s.withCall w oob).shift = s.shift := rfl
@[simp] theorem State.withCall_store (w : OpWord) (oob : Oob) : (s.withCall w oob).store = s.store := rfl
@[simp] theorem State.withCall_hist (w : OpWord) (oob : Oob) : (s.withCall w oob).hist = s.hist := rfl
@[simp] theorem State.withCall_faults (w : OpWord) (oob : Oob) : (s.withCall w oob).faults = s.faults := rfl
@[simp] theorem State.withCall_refused (w : OpWord) (oob : Oob) : (s.withCall w oob).refused = s.refused := rfl
@[simp] theorem State.withCall_outcomes (w : OpWord) (oob : Oob) : (s.withCall w oob).outcomes = s.outcomes := rfl
@[simp] theorem State.withCall_host (w : OpWord) (oob : Oob) : (s.withCall w oob).host = .call w oob :: s.host := rfl
@[simp] theorem State.withCall_bus (w : OpWord) (oob : Oob) : (s.withCall w oob).bus = s.bus := rfl
@[simp] theorem State.withCall_draws (w : OpWord) (oob : Oob) : (s.withCall w oob).draws = s.draws := rfl

/-! ### State.driveLow -/

@[simp] theorem State.driveLow_params (l : Line) : (s.driveLow l).params = s.params := rfl
@[simp] theorem State.driveLow_lines (l : Line) : (s.driveLow l).lines = s.lines.set l .zero := rfl
@[simp] theorem State.driveLow_srReady (l : Line) : (s.driveLow l).srReady = s.srReady := rfl
@[simp] theorem State.driveLow_srPc (l : Line) : (s.driveLow l).srPc = s.srPc := rfl
@[simp] theorem State.driveLow_srOp (l : Line) : (s.driveLow l).srOp = s.srOp := rfl
@[simp] theorem State.driveLow_srBytes (l : Line) : (s.driveLow l).srBytes = s.srBytes := rfl
@[simp] theorem State.driveLow_shift (l : Line) : (s.driveLow l).shift = s.shift := rfl
@[simp] theorem State.driveLow_store (l : Line) : (s.driveLow l).store = s.store := rfl
@[simp] theorem State.driveLow_hist (l : Line) : (s.driveLow l).hist = s.hist ++ [.lineSet l false] := rfl
@[simp] theorem State.driveLow_faults (l : Line) : (s.driveLow l).faults = s.faults := rfl
@[simp] theorem State.driveLow_refused (l : Line) : (s.driveLow l).refused = s.refused := rfl
@[simp] theorem State.driveLow_outcomes (l : Line) : (s.driveLow l).outcomes = s.outcomes := rfl
@[simp] theorem State.driveLow_host (l : Line) : (s.driveLow l).host = s.host := rfl
@[simp] theorem State.driveLow_bus (l : Line) : (s.driveLow l).bus = s.bus := rfl
@[simp] theorem State.driveLow_draws (l : Line) : (s.driveLow l).draws = s.draws := rfl

/-! ### State.suspend -/

@[simp] theorem State.suspend_params (k : DelayKind) (p : SrPc) : (s.suspend k p).params = s.params := rfl
@[simp] theorem State.suspend_lines (k : DelayKind) (p : SrPc) : (s.suspend k p).lines = s.lines := rfl
@[simp] theorem State.suspend_srReady (k : DelayKind) (p : SrPc) : (s.suspend k p).srReady = s.srReady := rfl
@[simp] theorem State.suspend_srPc (k : DelayKind) (p : SrPc) : (s.suspend k p).srPc = p := rfl
@[simp] theorem State.suspend_srOp (k : DelayKind) (p : SrPc) : (s.suspend k p).srOp = s.srOp := rfl
@[simp] theorem State.suspend_srBytes (k : DelayKind) (p : SrPc) : (s.suspend k p).srBytes = s.srBytes := rfl
@[simp] theorem State.suspend_shift (k : DelayKind) (p : SrPc) : (s.suspend k p).shift = s.shift := rfl
@[simp] theorem State.suspend_store (k : DelayKind) (p : SrPc) : (s.suspend k p).store = s.store := rfl
@[simp] theorem State.suspend_hist (k : DelayKind) (p : SrPc) : (s.suspend k p).hist = s.hist ++ [.delay k (delayTime s.params k)] := rfl
@[simp] theorem State.suspend_faults (k : DelayKind) (p : SrPc) : (s.suspend k p).faults = s.faults := rfl
@[simp] theorem State.suspend_refused (k : DelayKind) (p : SrPc) : (s.suspend k p).refused = s.refused := rfl
@[simp] theorem State.suspend_outcomes (k : DelayKind) (p : SrPc) : (s.suspend k p).outcomes = s.outcomes := rfl
@[simp] theorem State.suspend_host (k : DelayKind) (p : SrPc) : (s.suspend k p).host = s.host := rfl
@[simp] theorem State.suspend_bus (k : DelayKind) (p : SrPc) : (s.suspend k p).bus = s.bus := rfl
@[simp] theorem State.suspend_draws (k : DelayKind) (p : SrPc) : (s.suspend k p).draws = s.draws := rfl

/-! ### State.srReturn -/

@[simp] theorem State.srReturn_params : (s.srReturn).params = s.params := rfl
@[simp] theorem State.srReturn_lines : (s.srReturn).lines = s.lines := rfl
@[simp] theorem State.srReturn_srReady : (s.srReturn).srReady = s.srReady := rfl
@[simp] theorem State.srReturn_srPc : (s.srReturn).srPc = .idle := rfl
@[simp] theorem State.srReturn_srOp : (s.srReturn).srOp = none := rfl
@[simp] theorem State.srReturn_srBytes : (s.srReturn).srBytes = [] := rfl
@[simp] theorem State.srReturn_shift : (s.srReturn).shift = s.shift := rfl
@[simp] theorem State.srReturn_store : (s.srReturn).store = s.store := rfl
@[simp] theorem State.srReturn_hist : (s.srReturn).hist = s.hist := rfl
@[simp] theorem State.srReturn_faults : (s.srReturn).faults = s.faults := rfl
@[simp] theorem State.srReturn_refused : (s.srReturn).refused = s.refused := rfl
@[simp] theorem State.srReturn_outcomes : (s.srReturn).outcomes = s.outcomes ++ [.ok .unit] := rfl
@[simp] theorem State.srReturn_host : (s.srReturn).host = s.host := rfl
@[simp] theorem State.srReturn_bus : (s.srReturn).bus = s.bus := rfl
@[simp] theorem State.srReturn_draws : (s.srReturn).draws = s.draws := rfl

/-! ### State.memRead -/

@[simp] theorem State.memRead_params (reg : Byte) (n : Nat) : (s.memRead reg n).params = s.params := rfl
@[simp] theorem State.memRead_lines (reg : Byte) (n : Nat) : (s.memRead reg n).lines = s.lines := rfl
@[simp] theorem State.memRead_srReady (reg : Byte) (n : Nat) : (s.memRead reg n).srReady = s.srReady := rfl
@[simp] theorem State.memRead_srPc (reg : Byte) (n : Nat) : (s.memRead reg n).srPc = s.srPc := rfl
@[simp] theorem State.memRead_srOp (reg : Byte) (n : Nat) : (s.memRead reg n).srOp = s.srOp := rfl
@[simp] theorem State.memRead_srBytes (reg : Byte) (n : Nat) : (s.memRead reg n).srBytes = s.srBytes := rfl
@[simp] theorem State.memRead_shift (reg : Byte) (n : Nat) : (s.memRead reg n).shift = s.shift := rfl
@[simp] theorem State.memRead_store (reg : Byte) (n : Nat) : (s.memRead reg n).store = s.store := rfl
@[simp] theorem State.memRead_hist (reg : Byte) (n : Nat) : (s.memRead reg n).hist = s.hist ++ [.busWR rtcAddr [reg] n (s.readReply n)] := rfl
@[simp] theorem State.memRead_faults (reg : Byte) (n : Nat) : (s.memRead reg n).faults = s.faults := rfl
@[simp] theorem State.memRead_refused (reg : Byte) (n : Nat) : (s.memRead reg n).refused = s.refused := rfl
@[simp] theorem State.memRead_outcomes (reg : Byte) (n : Nat) : (s.memRead reg n).outcomes = s.outcomes := rfl
@[simp] theorem State.memRead_host (reg : Byte) (n : Nat) : (s.memRead reg n).host = s.host := rfl
@[simp] theorem State.memRead_bus (reg : Byte) (n : Nat) : (s.memRead reg n).bus = s.bus.tail := rfl
@[simp] theorem State.memRead_draws (reg : Byte) (n : Nat) : (s.memRead reg n).draws = s.draws + 1 := rfl

/-! ### State.memWrite -/

@[simp] theorem State.memWrite_params (reg : Byte) (bytes : List Byte) : (s.memWrite reg bytes).params = s.params := rfl
@[simp] theorem State.memWrite_lines (reg : Byte) (bytes : List Byte) : (s.memWrite reg bytes).lines = s.lines := rfl
@[simp] theorem State.memWrite_srReady (reg : Byte) (bytes : List Byte) : (s.memWrite reg bytes).srReady = s.srReady := rfl
@[simp] theorem State.memWrite_srPc (reg : Byte) (bytes : List Byte) : (s.memWrite reg bytes).srPc = s.srPc := rfl
@[simp] theorem State.memWrite_srOp (reg : Byte) (bytes : List Byte) : (s.memWrite reg bytes).srOp = s.srOp := rfl
@[simp] theorem State.memWrite_srBytes (reg : Byte) (bytes : List Byte) : (s.memWrite reg bytes).srBytes = s.srBytes := rfl
@[simp] theorem State.memWrite_shift (reg : Byte) (bytes : List Byte) : (s.memWrite reg bytes).shift = s.shift := rfl
@[simp] theorem State.memWrite_store (reg : Byte) (bytes : List Byte) : (s.memWrite reg bytes).store = s.store := rfl
@[simp] theorem State.memWrite_hist (reg : Byte) (bytes : List Byte) : (s.memWrite reg bytes).hist = s.hist ++ [.busW rtcAddr (reg :: bytes) s.writeReply] := rfl
@[simp] theorem State.memWrite_faults (reg : Byte) (bytes : List Byte) : (s.memWrite reg bytes).faults = s.faults := rfl
@[simp] theorem State.memWrite_refused (reg : Byte) (bytes : List Byte) : (s.memWrite reg bytes).refused = s.refused := rfl
@[simp] theorem State.memWrite_outcomes (reg : Byte) (bytes : List Byte) : (s.memWrite reg bytes).outcomes = s.outcomes := rfl
@[simp] theorem State.memWrite_host (reg : Byte) (bytes : List Byte) : (s.memWrite reg bytes).host = s.host := rfl
@[simp] theorem State.memWrite_bus (reg : Byte) (bytes : List Byte) : (s.memWrite reg bytes).bus = s.bus.tail := rfl
@[simp] theorem State.memWrite_draws (reg : Byte) (bytes : List Byte) : (s.memWrite reg bytes).draws = s.draws + 1 := rfl

/-! ### State.refuse -/

@[simp] theorem State.refuse_params (o : OpOutcome) : (s.refuse o).params = s.params := rfl
@[simp] theorem State.refuse_lines (o : OpOutcome) : (s.refuse o).lines = s.lines := rfl
@[simp] theorem State.refuse_srReady (o : OpOutcome) : (s.refuse o).srReady = s.srReady := rfl
@[simp] theorem State.refuse_srPc (o : OpOutcome) : (s.refuse o).srPc = s.srPc := rfl
@[simp] theorem State.refuse_srOp (o : OpOutcome) : (s.refuse o).srOp = s.srOp := rfl
@[simp] theorem State.refuse_srBytes (o : OpOutcome) : (s.refuse o).srBytes = s.srBytes := rfl
@[simp] theorem State.refuse_shift (o : OpOutcome) : (s.refuse o).shift = s.shift := rfl
@[simp] theorem State.refuse_store (o : OpOutcome) : (s.refuse o).store = s.store := rfl
@[simp] theorem State.refuse_hist (o : OpOutcome) : (s.refuse o).hist = s.hist := rfl
@[simp] theorem State.refuse_faults (o : OpOutcome) : (s.refuse o).faults = s.faults := rfl
@[simp] theorem State.refuse_refused (o : OpOutcome) : (s.refuse o).refused = true := rfl
@[simp] theorem State.refuse_outcomes (o : OpOutcome) : (s.refuse o).outcomes = s.outcomes ++ [o] := rfl
@[simp] theorem State.refuse_host (o : OpOutcome) : (s.refuse o).host = s.host := rfl
@[simp] theorem State.refuse_bus (o : OpOutcome) : (s.refuse o).bus = s.bus := rfl
@[simp] theorem State.refuse_draws (o : OpOutcome) : (s.refuse o).draws = s.draws := rfl

/-! ### State.faultNotInitialised -/

@[simp] theorem State.faultNotInitialised_params (w : OpWord) : (s.faultNotInitialised w).params = s.params := rfl
@[simp] theorem State.faultNotInitialised_lines (w : OpWord) : (s.faultNotInitialised w).lines = s.lines := rfl
@[simp] theorem State.faultNotInitialised_srReady (w : OpWord) : (s.faultNotInitialised w).srReady = s.srReady := rfl
@[simp] theorem State.faultNotInitialised_srPc (w : OpWord) : (s.faultNotInitialised w).srPc = s.srPc := rfl
@[simp] theorem State.faultNotInitialised_srOp (w : OpWord) : (s.faultNotInitialised w).srOp = s.srOp := rfl
@[simp] theorem State.faultNotInitialised_srBytes (w : OpWord) : (s.faultNotInitialised w).srBytes = s.srBytes := rfl
@[simp] theorem State.faultNotInitialised_shift (w : OpWord) : (s.faultNotInitialised w).shift = s.shift := rfl
@[simp] theorem State.faultNotInitialised_store (w : OpWord) : (s.faultNotInitialised w).store = s.store := rfl
@[simp] theorem State.faultNotInitialised_hist (w : OpWord) : (s.faultNotInitialised w).hist = s.hist := rfl
@[simp] theorem State.faultNotInitialised_faults (w : OpWord) : (s.faultNotInitialised w).faults = { s.faults with srNotInitialised := true } := rfl
@[simp] theorem State.faultNotInitialised_refused (w : OpWord) : (s.faultNotInitialised w).refused = s.refused := rfl
@[simp] theorem State.faultNotInitialised_outcomes (w : OpWord) : (s.faultNotInitialised w).outcomes = s.outcomes ++ [.srNotInitialised w] := rfl
@[simp] theorem State.faultNotInitialised_host (w : OpWord) : (s.faultNotInitialised w).host = s.host := rfl
@[simp] theorem State.faultNotInitialised_bus (w : OpWord) : (s.faultNotInitialised w).bus = s.bus := rfl
@[simp] theorem State.faultNotInitialised_draws (w : OpWord) : (s.faultNotInitialised w).draws = s.draws := rfl

/-! ### State.faultConcurrent -/

@[simp] theorem State.faultConcurrent_params (w : OpWord) : (s.faultConcurrent w).params = s.params := rfl
@[simp] theorem State.faultConcurrent_lines (w : OpWord) : (s.faultConcurrent w).lines = s.lines := rfl
@[simp] theorem State.faultConcurrent_srReady (w : OpWord) : (s.faultConcurrent w).srReady = s.srReady := rfl
@[simp] theorem State.faultConcurrent_srPc (w : OpWord) : (s.faultConcurrent w).srPc = s.srPc := rfl
@[simp] theorem State.faultConcurrent_srOp (w : OpWord) : (s.faultConcurrent w).srOp = s.srOp := rfl
@[simp] theorem State.faultConcurrent_srBytes (w : OpWord) : (s.faultConcurrent w).srBytes = s.srBytes := rfl
@[simp] theorem State.faultConcurrent_shift (w : OpWord) : (s.faultConcurrent w).shift = s.shift := rfl
@[simp] theorem State.faultConcurrent_store (w : OpWord) : (s.faultConcurrent w).store = s.store := rfl
@[simp] theorem State.faultConcurrent_hist (w : OpWord) : (s.faultConcurrent w).hist = s.hist := rfl
@[simp] theorem State.faultConcurrent_faults (w : OpWord) : (s.faultConcurrent w).faults = { s.faults with concurrentCall := true } := rfl
@[simp] theorem State.faultConcurrent_refused (w : OpWord) : (s.faultConcurrent w).refused = s.refused := rfl
@[simp] theorem State.faultConcurrent_outcomes (w : OpWord) : (s.faultConcurrent w).outcomes = s.outcomes ++ [.concurrentCall w s.srPc] := rfl
@[simp] theorem State.faultConcurrent_host (w : OpWord) : (s.faultConcurrent w).host = s.host := rfl
@[simp] theorem State.faultConcurrent_bus (w : OpWord) : (s.faultConcurrent w).bus = s.bus := rfl
@[simp] theorem State.faultConcurrent_draws (w : OpWord) : (s.faultConcurrent w).draws = s.draws := rfl

end Sys2Proof.Machine
end

