-- ==== Sys2Proof/Laws/Ops.lean ====
section
/-! SUPPORT. What the shared operations over lines, the chain, the bus and the caller can do. -/

namespace Sys2Proof.Machine

variable (s : State)

/-! ## Lines -/

@[simp] theorem Lines.set_clk_zero (ls : Lines) (v : Level) : ls.set .clk v = { ls with clk := v } := rfl
@[simp] theorem Lines.set_latch_zero (ls : Lines) (v : Level) : ls.set .latch v = { ls with latch := v } := rfl
@[simp] theorem Lines.set_data_zero (ls : Lines) (v : Level) : ls.set .data v = { ls with data := v } := rfl
@[simp] theorem Lines.get_clk (ls : Lines) : ls.get .clk = ls.clk := rfl
@[simp] theorem Lines.get_latch (ls : Lines) : ls.get .latch = ls.latch := rfl
@[simp] theorem Lines.get_data (ls : Lines) : ls.get .data = ls.data := rfl

theorem Lines.get_set_self (ls : Lines) (l : Line) (v : Level) : (ls.set l v).get l = v := by
  cases l <;> rfl

theorem Lines.get_set_of_ne (ls : Lines) {l l' : Line} (h : l' ≠ l) (v : Level) :
    (ls.set l v).get l' = ls.get l' := by
  cases l <;> cases l' <;> first | rfl | exact absurd rfl h

@[simp] theorem Level.ofBool_ne_x (b : Bool) : Level.ofBool b ≠ .x := by cases b <;> decide

@[simp] theorem isRise_zero (k : Nat) : isRise .zero k = true := rfl
@[simp] theorem isRise_one (k : Nat) : isRise .one k = false := rfl
@[simp] theorem edgeDraws_zero (k : Nat) : edgeDraws .zero k = k := rfl
@[simp] theorem edgeDraws_one (k : Nat) : edgeDraws .one k = k := rfl
@[simp] theorem edgeDraws_x (k : Nat) : edgeDraws .x k = k + 1 := rfl

/-! ## The chain's reaction to a rising edge -/

/-- A rising edge changes only the chain, and of it only the register the line is for. -/
theorem State.srdevRise_eq (l : Line) : s.srdevRise l =
    { s with
      shift := if l = .clk then shiftedIn s.params.nChips s.lines.data s.shift else s.shift
      store := if l = .latch then s.shift else s.store } := by
  cases l <;> rfl

/-! ## Driving a line -/

/-- All that `line[l] <- 1` does. -/
theorem State.driveHigh_eq (l : Line) : s.driveHigh l =
    { s with
      lines := s.lines.set l .one
      hist := s.hist ++ [.lineSet l true]
      draws := edgeDraws (s.lines.get l) s.draws
      shift := if l = .clk ∧ isRise s.lines.clk s.draws then
          shiftedIn s.params.nChips s.lines.data s.shift else s.shift
      store := if l = .latch ∧ isRise s.lines.latch s.draws then s.shift else s.store } := by
  unfold State.driveHigh
  generalize hk : isRise (s.lines.get l) s.draws = k
  cases l <;> cases k <;> simp_all [State.srdevRise, State.setLevel, State.record]

@[simp] theorem State.driveHigh_params (l : Line) : (s.driveHigh l).params = s.params := by
  rw [State.driveHigh_eq]
@[simp] theorem State.driveHigh_lines (l : Line) : (s.driveHigh l).lines = s.lines.set l .one := by
  rw [State.driveHigh_eq]
@[simp] theorem State.driveHigh_srReady (l : Line) : (s.driveHigh l).srReady = s.srReady := by
  rw [State.driveHigh_eq]
@[simp] theorem State.driveHigh_srPc (l : Line) : (s.driveHigh l).srPc = s.srPc := by
  rw [State.driveHigh_eq]
@[simp] theorem State.driveHigh_srOp (l : Line) : (s.driveHigh l).srOp = s.srOp := by
  rw [State.driveHigh_eq]
@[simp] theorem State.driveHigh_srBytes (l : Line) : (s.driveHigh l).srBytes = s.srBytes := by
  rw [State.driveHigh_eq]
@[simp] theorem State.driveHigh_hist (l : Line) : (s.driveHigh l).hist = s.hist ++ [.lineSet l true] := by
  rw [State.driveHigh_eq]
@[simp] theorem State.driveHigh_faults (l : Line) : (s.driveHigh l).faults = s.faults := by
  rw [State.driveHigh_eq]
@[simp] theorem State.driveHigh_refused (l : Line) : (s.driveHigh l).refused = s.refused := by
  rw [State.driveHigh_eq]
@[simp] theorem State.driveHigh_outcomes (l : Line) : (s.driveHigh l).outcomes = s.outcomes := by
  rw [State.driveHigh_eq]
@[simp] theorem State.driveHigh_host (l : Line) : (s.driveHigh l).host = s.host := by
  rw [State.driveHigh_eq]
@[simp] theorem State.driveHigh_bus (l : Line) : (s.driveHigh l).bus = s.bus := by
  rw [State.driveHigh_eq]

/-- A clock edge shifts; driving LATCH or DATA does not. -/
theorem State.driveHigh_shift (l : Line) : (s.driveHigh l).shift =
    if l = .clk ∧ isRise s.lines.clk s.draws then shiftedIn s.params.nChips s.lines.data s.shift else s.shift := by
  rw [State.driveHigh_eq]

/-- A latch edge copies; driving CLK or DATA does not. -/
theorem State.driveHigh_store (l : Line) : (s.driveHigh l).store =
    if l = .latch ∧ isRise s.lines.latch s.draws then s.shift else s.store := by
  rw [State.driveHigh_eq]

theorem State.driveHigh_draws (l : Line) :
    (s.driveHigh l).draws = edgeDraws (s.lines.get l) s.draws := by
  rw [State.driveHigh_eq]

/-- All that driving DATA does: DATA never moves the chain (10_state.md R52, R53). -/
theorem State.drive_data_eq (v : Bool) : s.drive .data v =
    { s with
      lines := { s.lines with data := Level.ofBool v }
      hist := s.hist ++ [.lineSet .data v]
      draws := if v then edgeDraws s.lines.data s.draws else s.draws } := by
  cases v
  · simp [State.drive, State.driveLow, State.setLevel, State.record, Level.ofBool]
  · simp [State.drive, State.driveHigh_eq, Level.ofBool]

/-! ## The chain -/

@[simp] theorem shiftedIn_length {n : Nat} {d : Level} {l : List Level} (h : l.length = 8 * n) :
    (shiftedIn n d l).length = 8 * n := by
  simp only [shiftedIn, List.length_take, List.length_cons, h]
  omega

/-! ## The bus -/

/-- A read's answer has as many bytes as were asked for (20_memory.md R81). -/
@[simp] theorem fitBytes_length (n : Nat) (bytes : List Byte) (k : Nat) : (fitBytes n bytes k).length = n := by
  simp [fitBytes]

/-- An answer of the right length is taken as it is. -/
theorem fitBytes_eq {n : Nat} {bytes : List Byte} (h : bytes.length = n) (k : Nat) : fitBytes n bytes k = bytes := by
  subst h
  apply List.ext_getElem
  · simp
  · intro i hi _
    simp_all [fitBytes, List.getD_eq_getElem?_getD]

theorem State.readReply_length {n : Nat} {b : List Byte} (h : s.readReply n = .ok b) : b.length = n := by
  unfold State.readReply at h
  split at h
  · cases h; simp
  · cases h

theorem State.readReply_ok {n : Nat} {b : List Byte} {rest : List BusAnswer} (h : s.bus = .ok b :: rest)
    (hn : b.length = n) : s.readReply n = .ok b := by
  simp [State.readReply, State.nextAnswer, h, fitBytes_eq hn]

theorem State.readReply_err {n : Nat} {e : BusError} {rest : List BusAnswer} (h : s.bus = .err e :: rest) :
    s.readReply n = .err e := by
  simp [State.readReply, State.nextAnswer, h]

theorem State.writeReply_ok {b : List Byte} {rest : List BusAnswer} (h : s.bus = .ok b :: rest) :
    s.writeReply = .ok := by
  simp [State.writeReply, State.nextAnswer, h]

theorem State.writeReply_err {e : BusError} {rest : List BusAnswer} (h : s.bus = .err e :: rest) :
    s.writeReply = .err e := by
  simp [State.writeReply, State.nextAnswer, h]

/-! ## Cancellation -/

@[simp] theorem State.cancelSr_idle (h : s.srPc = .idle) : s.cancelSr = s := by simp [State.cancelSr, h]

/-- All that a cancellation does (60_exceptions.md R280). -/
theorem State.cancelSr_eq (h : s.srPc ≠ .idle) : s.cancelSr =
    { s with
      srPc := .idle
      srOp := none
      srBytes := []
      hist := s.hist ++ [.cancel s.srPc]
      outcomes := s.outcomes ++ [.cancelled s.srPc] } := by
  simp [State.cancelSr, h, State.record, State.deliver, State.goIdle]

end Sys2Proof.Machine
end

