-- ==== Sys2Proof/Laws/PerInstr.lean ====
section
/-! SUPPORT. What holds of every operation as syntax: the fields of its operation word. -/

namespace Sys2Proof.Laws.WordUnit

open Sys2Proof

/-- `UNIT`, `OW[15:12]`, of the unit that executes the operation (30_encoding.md R102). -/
def unitOf : Instr → BitVec 4
  | .segEncode _ _ _ => 0x0#4
  | .srInit | .srPushByte _ | .srPushBytes _ | .srTransfer | .srPushByteAndTransfer _ | .srPushBytesAndTransfer _
  | .srSetOutputs _ | .srClearOutputs | .srSetAllOutputs => 0x1#4
  | .rtcInit | .rtcGetDatetime | .rtcSetDatetime _ | .rtcGetTemperature | .rtcIsBusy => 0x2#4
  | .bcdDec _ | .bcdEnc _ => 0x3#4

/-- `IMM8`, `OW[7:0]`: the operand byte where the form has one, else 0x00 (30_encoding.md R100, R103). -/
def immOf : Instr → Byte
  | .segEncode decimal _ _ => decimal
  | .srPushByte v | .srPushByteAndTransfer v | .srSetOutputs v | .bcdDec v | .bcdEnc v => v
  | .srInit | .srPushBytes _ | .srTransfer | .srPushBytesAndTransfer _ | .srClearOutputs | .srSetAllOutputs
  | .rtcInit | .rtcGetDatetime | .rtcSetDatetime _ | .rtcGetTemperature | .rtcIsBusy => 0x00#8

/-- The operation's word carries its unit and its immediate byte in the fields R100 gives them. -/
def Statement (i : Instr) : Prop := unitField i.word = unitOf i ∧ immByte i.word = immOf i

theorem segEncode (decimal : Byte) (dot on : Bool) : Statement (.segEncode decimal dot on) := by
  constructor <;> revert decimal <;> cases dot <;> cases on <;> decide

theorem srInit : Statement .srInit := by unfold Statement; decide

theorem srPushByte (v : Byte) : Statement (.srPushByte v) :=
  ⟨unitField_opWord _ v, immByte_opWord _ v⟩

theorem srPushBytes (bytes : List Byte) : Statement (.srPushBytes bytes) := by
  show unitField 0x1200#16 = 0x1#4 ∧ immByte 0x1200#16 = 0x00#8
  decide

theorem srTransfer : Statement .srTransfer := by unfold Statement; decide

theorem srPushByteAndTransfer (v : Byte) : Statement (.srPushByteAndTransfer v) :=
  ⟨unitField_opWord _ v, immByte_opWord _ v⟩

theorem srPushBytesAndTransfer (bytes : List Byte) : Statement (.srPushBytesAndTransfer bytes) := by
  show unitField 0x1500#16 = 0x1#4 ∧ immByte 0x1500#16 = 0x00#8
  decide

theorem srSetOutputs (v : Byte) : Statement (.srSetOutputs v) :=
  ⟨unitField_opWord _ v, immByte_opWord _ v⟩

theorem srClearOutputs : Statement .srClearOutputs := by unfold Statement; decide

theorem srSetAllOutputs : Statement .srSetAllOutputs := by unfold Statement; decide

theorem rtcInit : Statement .rtcInit := by unfold Statement; decide

theorem rtcGetDatetime : Statement .rtcGetDatetime := by unfold Statement; decide

theorem rtcSetDatetime (t : DateTime) : Statement (.rtcSetDatetime t) := by
  show unitField 0x2200#16 = 0x2#4 ∧ immByte 0x2200#16 = 0x00#8
  decide

theorem rtcGetTemperature : Statement .rtcGetTemperature := by unfold Statement; decide

theorem rtcIsBusy : Statement .rtcIsBusy := by unfold Statement; decide

theorem bcdDec (b : Byte) : Statement (.bcdDec b) := ⟨unitField_opWord _ b, immByte_opWord _ b⟩

theorem bcdEnc (n : Byte) : Statement (.bcdEnc n) := ⟨unitField_opWord _ n, immByte_opWord _ n⟩

end Sys2Proof.Laws.WordUnit
end

