-- ==== Sys2Proof/Laws/ShiftRegister.lean ====
section
/-! SUPPORT. What the routines of the SR unit and its sequencer can do. -/

namespace Sys2Proof.Machine

variable (s : State)

/-- All that the setup of one bit does (41_shift_register.md R172). -/
theorem State.dataSetup_eq (j : Nat) (i : Fin 8) (v : Byte) : s.dataSetup j i v =
    { s with
      lines := { s.lines with data := Level.ofBool (v.getLsbD i) }
      hist := s.hist ++ [.lineSet .data (v.getLsbD i), .delay .setup s.params.tSetup]
      srPc := .sSetup j i
      draws := if v.getLsbD i then edgeDraws s.lines.data s.draws else s.draws } := by
  simp [State.dataSetup, State.drive_data_eq, State.suspend, State.record, State.goTo, delayTime]

/-- All that `DataRest()` does, for either draw (41_shift_register.md R173). -/
theorem State.dataRest_cases :
    s.dataRest = { s with draws := s.draws + 1 } ∨
    s.dataRest =
      { s with
        lines := { s.lines with data := .zero }
        hist := s.hist ++ [.lineSet .data false]
        draws := s.draws + 1 } := by
  unfold State.dataRest
  split
  · exact .inr rfl
  · exact .inl rfl

/-- All that the rising half of a latch pulse does (41_shift_register.md R174). -/
theorem State.latchUp_eq : s.latchUp =
    { s with
      lines := { s.lines with latch := .one }
      hist := s.hist ++ [.lineSet .latch true, .delay .latch s.params.tLatch]
      srPc := .sLatch
      store := if isRise s.lines.latch s.draws then s.shift else s.store
      draws := edgeDraws s.lines.latch s.draws } := by
  simp [State.latchUp, State.driveHigh_eq, State.suspend, State.record, State.goTo, delayTime]

/-- All that SR.INIT does before its settle delay (41_shift_register.md R170). -/
theorem State.initStart_eq : s.initStart =
    { s with
      lines := ⟨.zero, .zero, .zero⟩
      srReady := false
      srPc := .sInit
      srOp := some .init
      srBytes := []
      hist := s.hist ++ [.lineSet .clk false, .lineSet .latch false, .lineSet .data false, .delay .init s.params.tInit] } := by
  simp [State.initStart, State.begin, State.setReady, State.driveLow, State.setLevel, State.suspend, State.record,
    State.goTo, delayTime]

/-- All that the clock's rise at a bit does (41_shift_register.md R172). -/
theorem State.clockUp_eq (j : Nat) (i : Fin 8) : (s.driveHigh .clk).suspend .high (.sHigh j i) =
    { s with
      lines := { s.lines with clk := .one }
      hist := s.hist ++ [.lineSet .clk true, .delay .high s.params.tHigh]
      srPc := .sHigh j i
      shift := if isRise s.lines.clk s.draws then shiftedIn s.params.nChips s.lines.data s.shift else s.shift
      draws := edgeDraws s.lines.clk s.draws } := by
  simp [State.driveHigh_eq, State.suspend, State.record, State.goTo, delayTime]

/-- After a push: a latch pulse begins, or the operation returns. -/
theorem State.afterPush_cases (op : SrOp) :
    (op.latches = true ∧ s.afterPush op = s.latchUp) ∨ (op.latches = false ∧ s.afterPush op = s.srReturn) := by
  unfold State.afterPush
  cases op.latches <;> simp

/-- Everything the admission of an SR operation can do (60_exceptions.md R278). -/
theorem srStart_cases {i : Instr} {op : SrOp} {bytes : List Byte} {o : Host.Outcome State Fault Refusal}
    (h : srStart i op bytes s = o) :
    (s.srPc ≠ .idle ∧ o = .next (s.faultConcurrent i.word)) ∨
    (s.srPc = .idle ∧ op = .init ∧ o = .next s.initStart) ∨
    (s.srPc = .idle ∧ op ≠ .init ∧ s.srReady = false ∧ o = .next (s.faultNotInitialised i.word)) ∨
    (s.srPc = .idle ∧ op ≠ .init ∧ s.srReady = true ∧ o = .next (s.pushStart op bytes)) := by
  subst h
  unfold srStart
  by_cases hi : s.srPc = .idle <;> by_cases hop : op = .init <;> by_cases hr : s.srReady = false <;> simp_all

/-- Everything the end of a delay can do (41_shift_register.md R183). -/
theorem srResume_cases {o : Host.Outcome State Fault Refusal} (h : srResume s = o) :
    (s.srPc = .idle ∧ o = .next s) ∨
    (s.srPc = .sInit ∧ o = .next (s.setReady true).srReturn) ∨
    (∃ j i, s.srPc = .sSetup j i ∧ o = .next ((s.driveHigh .clk).suspend .high (.sHigh j i))) ∨
    (∃ j i v op, s.srPc = .sHigh j i ∧ s.srBytes[j]? = some v ∧ s.srOp = some op ∧
      o = .next (s.bitEnd j i v op)) ∨
    (∃ j i, s.srPc = .sHigh j i ∧ (s.srBytes[j]? = none ∨ s.srOp = none) ∧ o = .fault .sequencerPosition) ∨
    (s.srPc = .sLatch ∧ o = .next (s.driveLow .latch).srReturn) := by
  subst h
  unfold srResume
  cases hp : s.srPc with
  | sHigh j i => rcases hv : s.srBytes[j]? with _ | v <;> rcases hop : s.srOp with _ | op <;> simp_all
  | _ => simp

theorem srResumeTimes_succ {s s' : State} (k : Nat) (h : srResume s = .next s') :
    srResumeTimes (k + 1) s = srResumeTimes k s' := by
  simp [srResumeTimes, h]

/-- Delays in a row split anywhere. -/
theorem srResumeTimes_add {s s' : State} {k : Nat} (m : Nat) (h : srResumeTimes k s = .next s') :
    srResumeTimes (k + m) s = srResumeTimes m s' := by
  induction k generalizing s with
  | zero => simp only [srResumeTimes, Host.Outcome.next.injEq] at h; simp [h]
  | succ k ih =>
    rw [Nat.succ_add]
    simp only [srResumeTimes] at h ⊢
    split at h <;> simp_all

end Sys2Proof.Machine
end

