-- ==== Sys2Proof/Laws/PushForm.lean ====
section
/-! SUPPORT. The push forms as one: how each starts, and how one bit, one byte and the end of a push run; and the
arithmetic of the bits pushed. -/

namespace Sys2Proof.Machine

/-! ## Starting -/

/-- Every push form is `srStart` of its operation and bytes. -/
theorem exec_pushForm {i : Instr} {op : SrOp} {bytes : List Byte} (h : pushForm i = some (op, bytes)) (s : State) :
    op ≠ .init ∧ exec i s = srStart i op bytes s := by
  cases i <;> simp [pushForm] at h <;> obtain ⟨rfl, rfl⟩ := h <;> exact ⟨by decide, rfl⟩

/-- From a usable unit it starts its push. -/
theorem exec_pushForm_usable {i : Instr} {op : SrOp} {bytes : List Byte} (h : pushForm i = some (op, bytes))
    {s : State} (hu : s.srUsable) : exec i s = .next (s.pushStart op bytes) := by
  obtain ⟨hop, he⟩ := exec_pushForm h s
  rw [he]
  simp [srStart, hu.1, hu.2, hop]

/-! ## The bits pushed -/

/-- One more bit shifted in. -/
theorem shiftedIn_shiftedBits (n : Nat) (bits : List Bool) (b : Bool) (shift : List Level) :
    shiftedIn n (Level.ofBool b) (shiftedBits n bits shift) = shiftedBits n (bits ++ [b]) shift := by
  simp only [shiftedIn, shiftedBits, List.reverse_append, List.reverse_singleton, List.map_cons, List.cons_append,
    List.nil_append]
  cases 8 * n with
  | zero => simp
  | succ m => simp [List.take_take]

theorem serialBits_length (bytes : List Byte) : (serialBits bytes).length = 8 * bytes.length := by
  induction bytes with
  | nil => rfl
  | cons v vs ih =>
    have : (serialBits (v :: vs)).length = (bitsMsbFirst v).length + (serialBits vs).length := by simp [serialBits]
    rw [this, ih]
    simp [bitsMsbFirst]
    omega

/-- Bit `b` of byte `j` is sent as bit number `8j + (7 - b)`. -/
theorem serialBits_getElem? {bytes : List Byte} {j : Nat} {v : Byte} (h : bytes[j]? = some v) {b : Nat} (hb : b < 8) :
    (serialBits bytes)[8 * j + (7 - b)]? = some (v.getLsbD b) := by
  induction bytes generalizing j with
  | nil => simp at h
  | cons w ws ih =>
    have hl : (bitsMsbFirst w).length = 8 := rfl
    have hs : serialBits (w :: ws) = bitsMsbFirst w ++ serialBits ws := by simp [serialBits]
    rw [hs]
    cases j with
    | zero =>
      cases h
      rw [List.getElem?_append_left (by omega)]
      have : b = 0 ∨ b = 1 ∨ b = 2 ∨ b = 3 ∨ b = 4 ∨ b = 5 ∨ b = 6 ∨ b = 7 := by omega
      rcases this with rfl | rfl | rfl | rfl | rfl | rfl | rfl | rfl <;> rfl
    | succ j =>
      rw [List.getElem?_append_right (by omega), hl, show 8 * (j + 1) + (7 - b) - 8 = 8 * j + (7 - b) by omega]
      exact ih (by simpa using h)

/-! ## Runs of the sequencer -/

/-- What a push leaves as it was: everything but the lines, the chain, the history, the position and the draws. -/
def State.sameButWires (s t : State) : Prop :=
  t.params = s.params ∧ t.srReady = s.srReady ∧ t.srOp = s.srOp ∧ t.srBytes = s.srBytes ∧ t.faults = s.faults ∧
    t.refused = s.refused ∧ t.outcomes = s.outcomes ∧ t.host = s.host ∧ t.bus = s.bus

theorem State.sameButWires_trans {s t u : State} (h : s.sameButWires t) (h' : t.sameButWires u) :
    s.sameButWires u := by
  simp_all [State.sameButWires]

theorem State.dataRest_sameButWires (s : State) : s.sameButWires s.dataRest := by
  rcases s.dataRest_cases with h | h <;> rw [h] <;> simp [State.sameButWires]

theorem State.dataSetup_sameButWires (s : State) (j : Nat) (i : Fin 8) (v : Byte) :
    s.sameButWires (s.dataSetup j i v) := by
  rw [State.dataSetup_eq]
  simp [State.sameButWires]

/-- The events of a byte from the setup delay of its bit `n` on, DATA already written. -/
def bitsTail (p : Params) (v : Byte) : Nat → List Event
  | 0 => [.lineSet .clk true, .delay .high p.tHigh, .lineSet .clk false]
  | n + 1 => [.lineSet .clk true, .delay .high p.tHigh, .lineSet .clk false, .lineSet .data (v.getLsbD n),
      .delay .setup p.tSetup] ++ bitsTail p v n

/-- With bit 7's write in front these are the byte's bits on the wire. -/
theorem bitsTail_seven (p : Params) (v : Byte) :
    [.lineSet .data (v.getLsbD 7), .delay .setup p.tSetup] ++ bitsTail p v 7 =
      (bitsMsbFirst v).flatMap (bitTrace p) := by
  simp [bitsTail, bitsMsbFirst, bitTrace]

/-- From the setup delay of bit `n` of byte `j`, two delays a bit bring the push to the end of the byte. -/
theorem srResumeTimes_bits {j : Nat} {op : SrOp} {v : Byte} (n : Nat) (hn : n < 8) (s : State)
    (hp : s.srPc = .sSetup j ⟨n, hn⟩) (hop : s.srOp = some op) (hv : s.srBytes[j]? = some v) :
    ∃ w : State, srResumeTimes (2 * (n + 1)) s = .next (w.byteEnd j op) ∧
      w.hist = s.hist ++ bitsTail s.params v n ∧ s.sameButWires w := by
  induction n generalizing s with
  | zero =>
    refine ⟨((s.driveHigh .clk).suspend .high (.sHigh j ⟨0, hn⟩)).driveLow .clk, ?_, ?_, ?_⟩
    · simp [srResumeTimes, srResume, hp, hop, hv, State.bitEnd]
    · simp [bitsTail, delayTime]
    · simp [State.sameButWires]
  | succ n ih =>
    have hpred : (⟨n + 1, hn⟩ - 1 : Fin 8) = ⟨n, by omega⟩ := by
      apply Fin.ext
      simpa using Fin.sub_val_of_le (a := (⟨n + 1, hn⟩ : Fin 8)) (b := 1) (by change 1 ≤ n + 1; omega)
    obtain ⟨s2, hs2⟩ : ∃ s2, s2 = (((s.driveHigh .clk).suspend .high (.sHigh j ⟨n + 1, hn⟩)).driveLow .clk).dataSetup
        j ⟨n, by omega⟩ v := ⟨_, rfl⟩
    have h2 : srResumeTimes 2 s = .next s2 := by
      simp [srResumeTimes, srResume, hp, hop, hv, State.bitEnd, hs2, hpred]
    have same : s.sameButWires s2 := by
      rw [hs2, State.dataSetup_eq]
      simp [State.sameButWires]
    obtain ⟨w, hrun, hhist, hsame⟩ := ih (by omega) s2 (by rw [hs2, State.dataSetup_eq])
      (by rw [same.2.2.1, hop]) (by rw [same.2.2.2.1, hv])
    refine ⟨w, ?_, ?_, State.sameButWires_trans same hsame⟩
    · rw [show 2 * (n + 1 + 1) = 2 + 2 * (n + 1) by omega, srResumeTimes_add _ h2, hrun]
    · rw [hhist, same.1, hs2, State.dataSetup_eq]
      simp [bitsTail, delayTime]

/-- From the setup delay of bit 7 of byte `j`, sixteen delays a byte bring the push to its end. -/
theorem srResumeTimes_bytes {op : SrOp} (vs : List Byte) (j : Nat) (s : State) (v : Byte)
    (hp : s.srPc = .sSetup j 7) (hop : s.srOp = some op) (hd : s.srBytes.drop j = v :: vs) :
    ∃ (w : State) (rests : List Bool) (evs : List Event),
      srResumeTimes (16 * (vs.length + 1)) s = .next (w.afterPush op) ∧ rests.length = vs.length + 1 ∧
      w.hist = s.hist ++ evs ∧ s.sameButWires w ∧
      [.lineSet .data (v.getLsbD 7), .delay .setup s.params.tSetup] ++ evs = pushTrace s.params (v :: vs) rests := by
  have hrest (w : State) : w.dataRest.hist =
      w.hist ++ if Config.freeDataRest w.draws then [.lineSet .data false] else [] := by
    unfold State.dataRest
    split <;> simp
  induction vs generalizing j s v with
  | nil =>
    have hv : s.srBytes[j]? = some v := by rw [← List.head?_drop, hd]; rfl
    have hv' : s.srBytes[j + 1]? = none := by rw [← List.head?_drop, ← List.tail_drop, hd]; rfl
    obtain ⟨w, hrun, hhist, hsame⟩ := srResumeTimes_bits 7 (by omega) s hp hop hv
    refine ⟨w.dataRest, [Config.freeDataRest w.draws], _, ?_, rfl, by rw [hrest, hhist, List.append_assoc],
      State.sameButWires_trans hsame w.dataRest_sameButWires, ?_⟩
    · rw [show w.dataRest.afterPush op = w.byteEnd j op by simp [State.byteEnd, hsame.2.2.2.1, hv']]
      exact hrun
    · rw [← List.append_assoc, bitsTail_seven]
      simp [pushTrace, byteTrace]
  | cons v' vs ih =>
    have hv : s.srBytes[j]? = some v := by rw [← List.head?_drop, hd]; rfl
    have hv' : s.srBytes[j + 1]? = some v' := by rw [← List.head?_drop, ← List.tail_drop, hd]; rfl
    obtain ⟨w, hrun, hhist, hsame⟩ := srResumeTimes_bits 7 (by omega) s hp hop hv
    obtain ⟨s2, hs2⟩ : ∃ s2, s2 = w.dataRest.dataSetup (j + 1) 7 v' := ⟨_, rfl⟩
    have hend : w.byteEnd j op = s2 := by rw [hs2]; simp [State.byteEnd, hsame.2.2.2.1, hv']
    have same : s.sameButWires s2 := by
      rw [hs2]
      exact State.sameButWires_trans (State.sameButWires_trans hsame w.dataRest_sameButWires)
        (State.dataSetup_sameButWires _ _ _ _)
    obtain ⟨x, rests, evs, xrun, xlen, xhist, xsame, xtrace⟩ := ih (j + 1) s2 v' (by rw [hs2, State.dataSetup_eq])
      (by rw [same.2.2.1, hop]) (by rw [same.2.2.2.1, ← List.tail_drop, hd]; rfl)
    rw [same.1] at xtrace
    refine ⟨x, Config.freeDataRest w.draws :: rests, bitsTail s.params v 7 ++
        (if Config.freeDataRest w.draws then [.lineSet .data false] else []) ++ pushTrace s.params (v' :: vs) rests,
      ?_, by simp [xlen], ?_, State.sameButWires_trans same xsame, ?_⟩
    · rw [List.length_cons, show 16 * (vs.length + 1 + 1) = 2 * (7 + 1) + 16 * (vs.length + 1) by omega,
        srResumeTimes_add _ hrun, hend]
      exact xrun
    · have hparams : w.dataRest.params = s.params := (State.sameButWires_trans hsame w.dataRest_sameButWires).1
      rw [xhist, ← xtrace, hs2, State.dataSetup_eq]
      simp [hrest, hhist, hparams]
    · rw [← List.append_assoc, ← List.append_assoc, bitsTail_seven]
      simp [pushTrace, byteTrace]

/-- The end of a push: the latch pulse, if the operation has one, and the return. -/
theorem srResumeTimes_afterPush (op : SrOp) (w : State) :
    ∃ u : State, srResumeTimes (if op.latches then 1 else 0) (w.afterPush op) = .next u ∧
      u.hist = w.hist ++ latchTrace w.params op ∧ u.outcomes = w.outcomes ++ [.ok .unit] ∧ u.srPc = .idle ∧
      u.srOp = none ∧ u.srBytes = [] ∧ u.srReady = w.srReady ∧ u.params = w.params ∧ u.faults = w.faults ∧
      u.refused = w.refused ∧ u.host = w.host ∧ u.bus = w.bus ∧ u.shift = w.shift := by
  rcases State.afterPush_cases w op with ⟨hlat, ha⟩ | ⟨hlat, ha⟩ <;> rw [ha, hlat]
  · rw [State.latchUp_eq]
    exact ⟨_, rfl, by simp [latchTrace, hlat]⟩
  · exact ⟨_, rfl, by simp [latchTrace, hlat]⟩

end Sys2Proof.Machine
end

