-- ==== Sys2Proof/Laws/Step.lean ====
section
/-! SUPPORT. What one step can do. -/

namespace Sys2Proof.Machine

/-- Everything one step can do: a presented operation runs or is refused, the HOST cancels, waits or is done, or a
delay ends. -/
theorem step_cases {s : State} {o : Host.Outcome State Fault Refusal} (h : step s = o) :
    (∃ w oob rest i, s.host = .call w oob :: rest ∧ decode w oob = .ok i ∧ o = exec i s.popHost) ∨
    (∃ w oob rest why, s.host = .call w oob :: rest ∧ decode w oob = .refused why ∧
      o = .next (s.popHost.refuse (refusalOutcome w oob why))) ∨
    (∃ rest, s.host = .cancel :: rest ∧ o = .next s.popHost.cancelSr) ∨
    (∃ rest, s.host = .elapse :: rest ∧ o = srResume s.popHost) ∨
    (∃ rest, s.host = .await :: rest ∧ s.srPc = .idle ∧ o = .next s.popHost) ∨
    (∃ rest, s.host = .await :: rest ∧ s.srPc ≠ .idle ∧ o = srResume s) ∨
    (s.host = [] ∧ o = srResume s) := by
  subst h
  unfold step agentStep
  cases hh : s.host with
  | nil => simp
  | cons a rest =>
    cases a with
    | call w oob => cases hd : decode w oob <;> simp [present, hd]
    | await => by_cases hi : s.srPc = .idle <;> simp [hi]
    | cancel => simp
    | elapse => simp

/-- Every operation answers a next state. -/
theorem exec_next (i : Instr) (s : State) : ∃ t, exec i s = .next t := by
  cases i <;> exact ⟨_, rfl⟩

end Sys2Proof.Machine
end

