-- ==== Sys2Proof/Tests/Slice0.lean ====
section
/-! SUPPORT. Tests: ill-formed operands, every operation's word written out bit by bit, single steps with results
from spec/95_test_vectors.md, and a witness for the hypotheses of every statement. -/

namespace Sys2Proof.Tests

open Sys2Proof Sys2Proof.Machine

/-! ## Helpers -/

/-- The next state, if the outcome is one. -/
def nextOf : Host.Outcome State Fault Refusal → Option State
  | .next t => some t
  | .fault _ => none
  | .refused _ => none

/-- What the last report of the next state is. -/
def reported (o : Host.Outcome State Fault Refusal) : Option OpOutcome := (nextOf o).bind (·.outcomes.getLast?)

/-- The last recorded event of the next state. -/
def recorded (o : Host.Outcome State Fault Refusal) : Option Event := (nextOf o).bind (·.hist.getLast?)

/-- One chip's register, its bits written MSB first. -/
def chip (b7 b6 b5 b4 b3 b2 b1 b0 : Level) : List Level := [b0, b1, b2, b3, b4, b5, b6, b7]

/-- 0x5F in a chip. -/
def r5F : List Level := chip .zero .one .zero .one .one .one .one .one

/-- 0x34 in a chip. -/
def r34 : List Level := chip .zero .zero .one .one .zero .one .zero .zero

/-- 0x12 in a chip. -/
def r12 : List Level := chip .zero .zero .zero .one .zero .zero .one .zero

/-- Eight unknown bits. -/
def rX : List Level := chip .x .x .x .x .x .x .x .x

/-- SR.INIT has completed, on `n` chips, the lines are 0. -/
def ready (n : Nat) (shift store : List Level) : State :=
  { State.powerUp { defaultParams with nChips := n } with
    lines := ⟨.zero, .zero, .zero⟩, srReady := true, shift := shift, store := store }

/-- A ready unit of one chip that holds 0x5F and shows it. -/
def ready5F : State := ready 1 r5F r5F

/-- An operation waiting at `p`, with the lines as given. -/
def waiting (op : SrOp) (bytes : List Byte) (p : SrPc) (ls : Lines) : State :=
  { ready5F with srPc := p, srOp := some op, srBytes := bytes, lines := ls }

/-- A power-up block with the oracle's answers given. -/
def withBus (answers : List BusAnswer) : State := { State.reset with bus := answers }

/-- The same under the DS3231 layout. -/
def withBus7 (answers : List BusAnswer) : State :=
  { State.powerUp { defaultParams with layout := .ds3231 } with bus := answers }

/-- Some bus error. -/
def anError : BusError := ⟨1⟩

/-- 2024-12-31 23:59:58. -/
def lastDay : DateTime := ⟨2024, 12, 31, 23, 59, 58⟩

/-- What holds after either draw of `DataRest()` holds after it. -/
theorem after_dataRest (P : State → Prop) (s : State) (h : P s.draw) (h' : P (s.draw.driveLow .data)) :
    P s.dataRest := by
  unfold State.dataRest
  split
  · exact h'
  · exact h

/-! ## Well-formed operands (42_rtc.md R225, R242) -/

theorem test_bcdEnc_bounds :
    (Instr.bcdEnc 99#8).wellFormed = true ∧ (Instr.bcdEnc 100#8).wellFormed = false := by decide

theorem test_setDatetime_bounds_accepted :
    (Instr.rtcSetDatetime ⟨2000, 1, 1, 0, 0, 0⟩).wellFormed = true ∧
    (Instr.rtcSetDatetime ⟨2099, 12, 31, 23, 59, 59⟩).wellFormed = true := by decide

theorem test_setDatetime_year_refused :
    (Instr.rtcSetDatetime ⟨1999, 12, 31, 0, 0, 0⟩).wellFormed = false ∧
    (Instr.rtcSetDatetime ⟨2100, 1, 1, 0, 0, 0⟩).wellFormed = false := by decide

theorem test_setDatetime_month_refused :
    (Instr.rtcSetDatetime ⟨2025, 0, 1, 0, 0, 0⟩).wellFormed = false ∧
    (Instr.rtcSetDatetime ⟨2025, 13, 1, 0, 0, 0⟩).wellFormed = false := by decide

theorem test_setDatetime_day_refused :
    (Instr.rtcSetDatetime ⟨2025, 1, 0, 0, 0, 0⟩).wellFormed = false ∧
    (Instr.rtcSetDatetime ⟨2025, 1, 32, 0, 0, 0⟩).wellFormed = false := by decide

theorem test_setDatetime_clock_refused :
    (Instr.rtcSetDatetime ⟨2025, 1, 1, 24, 0, 0⟩).wellFormed = false ∧
    (Instr.rtcSetDatetime ⟨2025, 1, 1, 0, 60, 0⟩).wellFormed = false ∧
    (Instr.rtcSetDatetime ⟨2025, 1, 1, 0, 0, 60⟩).wellFormed = false := by decide

/-! ## Configurations -/

/-- R143's default and R145's other forms of 6, 7 and 9 (S11, S12) are admissible tables. -/
theorem test_tables_admitted :
    defaultSegTable.admissible = true ∧
    ({ defaultSegTable with d6 := 0xC7#8, d7 := 0x5C#8, d9 := 0xDC#8 } : SegTable).admissible = true := by decide

/-- R144: another row 0, 1 or 8, or a decimal-point bit, is not. -/
theorem test_tables_refused :
    ({ defaultSegTable with d0 := 0x00#8 } : SegTable).admissible = false ∧
    ({ defaultSegTable with d1 := 0x5F#8 } : SegTable).admissible = false ∧
    ({ defaultSegTable with d8 := 0xFF#8 } : SegTable).admissible = false ∧
    ({ defaultSegTable with d2 := 0xBB#8 } : SegTable).admissible = false := by decide

/-- R323, R6: a delay shorter than the chips need, or no chip, is refused. -/
theorem test_configurations_refused :
    State.configure { defaultParams with tSetup := 0 } = none ∧ State.configure { defaultParams with tHigh := 0 } = none ∧
    State.configure { defaultParams with tLatch := 0 } = none ∧
    State.configure { defaultParams with nChips := 0 } = none ∧
    State.configure defaultParams = some State.reset := by decide

/-! ## Every operation's word, bit by bit (30_encoding.md R101, R103, R106) -/

theorem test_decode_segEncode :
    decode 0b0000_00_1_1_00001000#16 .absent = .ok (.segEncode 8#8 true true) ∧
    decode 0b0000_00_1_0_00000101#16 .absent = .ok (.segEncode 5#8 false true) ∧
    decode 0b0000_00_0_1_11111111#16 .absent = .ok (.segEncode 255#8 true false) := by decide

theorem test_decode_srInit : decode 0b0001_0000_00000000#16 .absent = .ok .srInit := by decide

theorem test_decode_srPushByte : decode 0b0001_0001_10100101#16 .absent = .ok (.srPushByte 0xA5#8) := by decide

theorem test_decode_srPushBytes :
    decode 0b0001_0010_00000000#16 (.list [0xCC#8, 0x9B#8]) = .ok (.srPushBytes [0xCC#8, 0x9B#8]) := by decide

theorem test_decode_srTransfer : decode 0b0001_0011_00000000#16 .absent = .ok .srTransfer := by decide

theorem test_decode_srPushByteAndTransfer :
    decode 0b0001_0100_10110000#16 .absent = .ok (.srPushByteAndTransfer 0xB0#8) := by decide

theorem test_decode_srPushBytesAndTransfer :
    decode 0b0001_0101_00000000#16 (.list []) = .ok (.srPushBytesAndTransfer []) := by decide

theorem test_decode_srSetOutputs :
    decode 0b0001_0110_00111100#16 .absent = .ok (.srSetOutputs 0x3C#8) := by decide

theorem test_decode_srClearOutputs : decode 0b0001_0111_00000000#16 .absent = .ok .srClearOutputs := by decide

theorem test_decode_srSetAllOutputs : decode 0b0001_1000_00000000#16 .absent = .ok .srSetAllOutputs := by decide

theorem test_decode_rtcInit : decode 0b0010_0000_00000000#16 .absent = .ok .rtcInit := by decide

theorem test_decode_rtcGetDatetime : decode 0b0010_0001_00000000#16 .absent = .ok .rtcGetDatetime := by decide

theorem test_decode_rtcSetDatetime :
    decode 0b0010_0010_00000000#16 (.record lastDay) = .ok (.rtcSetDatetime lastDay) := by decide

theorem test_decode_rtcGetTemperature :
    decode 0b0010_0011_00000000#16 .absent = .ok .rtcGetTemperature := by decide

theorem test_decode_rtcIsBusy : decode 0b0010_0100_00000000#16 .absent = .ok .rtcIsBusy := by decide

theorem test_decode_bcdDec : decode 0b0011_0000_01011001#16 .absent = .ok (.bcdDec 0x59#8) := by decide

theorem test_decode_bcdEnc : decode 0b0011_0001_00010111#16 .absent = .ok (.bcdEnc 23#8) := by decide

/-- 95_test_vectors.md E2 to E7. -/
theorem test_decode_reserved :
    decode 0x0400#16 .absent = .refused .reservedEncoding ∧ decode 0x0C05#16 .absent = .refused .reservedEncoding ∧
    decode 0x1001#16 .absent = .refused .reservedEncoding ∧ decode 0x1900#16 .absent = .refused .reservedEncoding ∧
    decode 0x2500#16 .absent = .refused .reservedEncoding ∧ decode 0x3200#16 .absent = .refused .reservedEncoding ∧
    decode 0x4000#16 .absent = .refused .reservedEncoding ∧
    decode 0xFFFF#16 .absent = .refused .reservedEncoding := by decide

/-- 95_test_vectors.md E8 to E10. -/
theorem test_decode_operands :
    decode 0x1200#16 .absent = .refused .missingOperand ∧
    decode 0x1100#16 (.list [0x00#8]) = .refused .extraOperand ∧
    decode 0x2200#16 .absent = .refused .missingOperand ∧
    decode 0x2200#16 (.list []) = .refused .missingOperand := by decide

theorem test_table_words :
    decodeTableWord 16 0x11FF = some (.srPushByte 0xFF#8) ∧ decodeTableWord 16 0x1500 = some (.srPushBytesAndTransfer []) ∧
    decodeTableWord 16 0x2200 = some (.rtcSetDatetime ⟨2000, 1, 1, 0, 0, 0⟩) ∧
    decodeTableWord 16 0x0400 = none := by decide

/-! ## Steps from reset -/

/-- The first step after reset with 0x1000 placed starts SR.INIT: SR1's trace. -/
theorem test_reset_runs_srInit :
    (nextOf (step (State.reset.withFetchWord 16 0x1000))).map (·.hist) =
      some [.lineSet .clk false, .lineSet .latch false, .lineSet .data false, .delay .init 10000] := by decide

/-- SR2. -/
theorem test_reset_refuses_push :
    (nextOf (step (State.reset.withFetchWord 16 0x1112))).map (fun t => (t.faults, t.hist)) =
      some (⟨true, false⟩, []) := by decide

/-- E2: a reserved word sets the mark. -/
theorem test_reset_reserved_word :
    (nextOf (step (State.reset.withFetchWord 16 0x0800))).map (·.refused) = some true := by decide

theorem test_reset_idles : nextOf (step State.reset) = some State.reset := by decide

/-! ## Segment encoder -/

/-- W3, S9, S14, S16. -/
theorem test_segEncode_vectors :
    reported (exec (.segEncode 8#8 false true) State.reset) = some (.ok (.u8 0xDF#8)) ∧
    reported (exec (.segEncode 8#8 true true) State.reset) = some (.ok (.u8 0xFF#8)) ∧
    reported (exec (.segEncode 8#8 true false) State.reset) = some (.ok (.u8 0x20#8)) ∧
    reported (exec (.segEncode 10#8 false true) State.reset) = some (.ok (.u8 0x00#8)) := by decide

/-- S2 to S8, S10, without the dot. -/
theorem test_segEncode_digits :
    ([1#8, 2#8, 3#8, 4#8, 5#8, 6#8, 7#8, 9#8].map fun d =>
      reported (exec (.segEncode d false true) State.reset)) =
    [0x0C#8, 0x9B#8, 0x9E#8, 0xCC#8, 0xD6#8, 0xD7#8, 0x1C#8, 0xDE#8].map fun v => some (.ok (.u8 v)) := by decide

/-! ## BCD -/

/-- B4, B6, B7, B8. -/
theorem test_bcdDec_vectors :
    reported (exec (.bcdDec 0x59#8) State.reset) = some (.ok (.u8 59#8)) ∧
    reported (exec (.bcdDec 0x0A#8) State.reset) = some (.ok (.u8 10#8)) ∧
    reported (exec (.bcdDec 0xA0#8) State.reset) = some (.ok (.u8 100#8)) ∧
    reported (exec (.bcdDec 0xFF#8) State.reset) = some (.ok (.u8 165#8)) := by decide

/-- B11, B13, B14, B15. -/
theorem test_bcdEnc_vectors :
    reported (exec (.bcdEnc 10#8) State.reset) = some (.ok (.u8 0x10#8)) ∧
    reported (exec (.bcdEnc 59#8) State.reset) = some (.ok (.u8 0x59#8)) ∧
    reported (exec (.bcdEnc 99#8) State.reset) = some (.ok (.u8 0x99#8)) ∧
    reported (exec (.bcdEnc 100#8) State.reset) = some (.refusedOperand 0x3164#16 (.bcdRange 100#8)) := by decide

/-! ## Shift register -/

/-- SR1's end: the settle delay over, ready, SHIFT still unknown. -/
theorem test_srInit_ends :
    (nextOf (srResume { State.reset with srPc := .sInit, srOp := some .init, lines := ⟨.zero, .zero, .zero⟩ })).map
      (fun t => (t.srReady, t.srPc, t.shift)) = some (true, .idle, rX) := by decide

/-- P4, step 4: SR.INIT with CLK left at 1 is a falling edge and moves nothing. -/
theorem test_srInit_from_clk_high :
    (nextOf (exec .srInit { ready5F with lines := ⟨.one, .zero, .zero⟩ })).map
      (fun t => (t.lines, t.shift, t.store, t.srReady)) = some (⟨.zero, .zero, .zero⟩, r5F, r5F, false) := by decide

/-- SR3: the first bit of 0xA5 is 1. -/
theorem test_srPushByte_starts :
    (nextOf (exec (.srPushByte 0xA5#8) ready5F)).map (fun t => (t.lines.data, t.srPc, t.shift)) =
      some (.one, .sSetup 0 7, r5F) := by decide

/-- SR5's chain at one clock edge: SHIFT = 0x1234 with DATA 1 becomes 0x2469. -/
theorem test_srPushByte_shifts :
    (nextOf (srResume { ready 2 (r34 ++ r12) [] with
      srPc := .sSetup 0 7, srOp := some .pushByte, srBytes := [0xA5#8], lines := ⟨.zero, .zero, .one⟩ })).map
      (·.shift) = some (chip .zero .one .one .zero .one .zero .zero .one ++
        chip .zero .zero .one .zero .zero .one .zero .zero) := by decide

/-- SR6. -/
theorem test_srPushBytes_empty :
    (nextOf (exec (.srPushBytes []) ready5F)).map (fun t => (t.hist, t.srPc, t.outcomes)) =
      some ([], .idle, [.ok .unit]) := by decide

/-- SR7: after the first byte comes bit 7 of 0x9B. -/
theorem test_srPushBytes_next_byte :
    (nextOf (srResume (waiting .pushBytes [0xCC#8, 0x9B#8] (.sHigh 0 0) ⟨.one, .zero, .zero⟩))).map
      (fun t => (t.lines, t.srPc, t.store)) = some (⟨.zero, .zero, .one⟩, .sSetup 1 7, r5F) := by
  refine after_dataRest (fun d => (some (d.dataSetup 1 7 0x9B#8)).map (fun t => (t.lines, t.srPc, t.store)) = _)
    ((waiting .pushBytes [0xCC#8, 0x9B#8] (.sHigh 0 0) ⟨.one, .zero, .zero⟩).driveLow .clk) ?_ ?_ <;> decide

/-- SR9. -/
theorem test_srTransfer_copies :
    (nextOf (exec .srTransfer (ready 1 r5F (chip .zero .zero .zero .zero .zero .zero .zero .zero)))).map
      (fun t => (t.store, t.hist)) = some (r5F, [.lineSet .latch true, .delay .latch 1000]) := by decide

/-- SR10: unknown bits are copied as unknown. -/
theorem test_srTransfer_copies_unknown :
    (nextOf (exec .srTransfer (ready 1 rX r5F))).map (·.store) = some rX := by decide

/-- W4, at the end of bit 0: LATCH rises and STORE takes SHIFT, whatever `DataRest()` does. -/
theorem test_srPushByteAndTransfer_latches :
    (nextOf (srResume { waiting .pushByteAndTransfer [0xB0#8] (.sHigh 0 0) ⟨.one, .zero, .zero⟩ with
      shift := chip .one .zero .one .one .zero .zero .zero .zero })).map (fun t => (t.srPc, t.store)) =
      some (.sLatch, chip .one .zero .one .one .zero .zero .zero .zero) := by
  refine after_dataRest (fun d => (some d.latchUp).map (fun t => (t.srPc, t.store)) = _)
    (State.driveLow { waiting .pushByteAndTransfer [0xB0#8] (.sHigh 0 0) ⟨.one, .zero, .zero⟩ with
      shift := chip .one .zero .one .one .zero .zero .zero .zero } .clk) ?_ ?_ <;> decide

/-- SR22: with LATCH left at 1 its rise is no edge. -/
theorem test_srPushByteAndTransfer_lost_latch :
    (nextOf (srResume { waiting .pushByteAndTransfer [0x0C#8] (.sHigh 0 0) ⟨.one, .one, .zero⟩ with
      shift := rX })).map (fun t => (t.srPc, t.store)) = some (.sLatch, r5F) := by
  refine after_dataRest (fun d => (some d.latchUp).map (fun t => (t.srPc, t.store)) = _)
    (State.driveLow { waiting .pushByteAndTransfer [0x0C#8] (.sHigh 0 0) ⟨.one, .one, .zero⟩ with
      shift := rX } .clk) ?_ ?_ <;> decide

/-- SR14. -/
theorem test_srPushBytesAndTransfer_empty :
    (nextOf (exec (.srPushBytesAndTransfer []) (ready 1 r5F rX))).map (fun t => (t.store, t.srPc)) =
      some (r5F, .sLatch) := by decide

/-- SR13: the first bit of 0xCC. -/
theorem test_srPushBytesAndTransfer_starts :
    (nextOf (exec (.srPushBytesAndTransfer [0xCC#8, 0x9B#8]) ready5F)).map (fun t => (t.lines.data, t.srBytes)) =
      some (.one, [0xCC#8, 0x9B#8]) := by decide

/-- SR15, SR16, SR17: the byte each of the three kept calls pushes. -/
theorem test_kept_patterns :
    (nextOf (exec (.srSetOutputs 0x3C#8) ready5F)).map (fun t => (t.lines.data, t.srBytes)) =
      some (.zero, [0x3C#8]) ∧
    (nextOf (exec .srClearOutputs ready5F)).map (fun t => (t.lines.data, t.srBytes)) = some (.zero, [0x00#8]) ∧
    (nextOf (exec .srSetAllOutputs ready5F)).map (fun t => (t.lines.data, t.srBytes)) =
      some (.one, [0xFF#8]) := by decide

/-- SR18. -/
theorem test_overlap_faults :
    (nextOf (exec .srTransfer (waiting .pushByte [0x12#8] (.sHigh 0 3) ⟨.one, .zero, .zero⟩))).map
      (fun t => (t.faults, t.srPc, t.hist)) = some (⟨false, true⟩, .sHigh 0 3, []) := by decide

/-- SR20: a cancellation at S_HIGH leaves CLK at 1. -/
theorem test_cancel_at_high :
    let c := (waiting .pushByte [0xFF#8] (.sHigh 0 2) ⟨.one, .zero, .one⟩).cancelSr
    (c.lines, c.hist, c.srPc) = (⟨.one, .zero, .one⟩, [.cancel (.sHigh 0 2)], .idle) := by decide

/-- P5, step 4: CLK already 1 is no edge, and the bit is lost. -/
theorem test_clk_left_high_loses_a_bit :
    (nextOf (srResume (waiting .pushByteAndTransfer [0x01#8] (.sSetup 0 7) ⟨.one, .zero, .zero⟩))).map
      (fun t => (t.shift, t.srPc)) = some (r5F, .sHigh 0 7) := by decide

/-- W2: with 0x0C shown, a chip lights B and C only. -/
theorem test_segment_lines :
    let s := ready 1 r5F (chip .zero .zero .zero .zero .one .one .zero .zero)
    ([.a, .b, .c, .d, .e, .f, .g, .dp].map fun seg => s.segmentLine 0 seg) =
      [.zero, .one, .one, .zero, .zero, .zero, .zero, .zero] := by decide

/-! ## RTC -/

/-- T1, T2, T3. -/
theorem test_rtcInit_vectors :
    reported (exec .rtcInit (withBus [.ok [0x00#8, 0x30#8, 0x09#8, 0x01#8, 0x01#8, 0x25#8, 0x00#8]])) =
      some (.ok (.bool true)) ∧
    reported (exec .rtcInit (withBus [.err anError])) = some (.ok (.bool false)) ∧
    recorded (exec .rtcInit (withBus [.err anError])) = some (.busWR 0x68#7 [0x00#8] 7 (.err anError)) := by decide

/-- W7, T5, T6, T8. -/
theorem test_rtcGetDatetime_vectors :
    reported (exec .rtcGetDatetime (withBus [.ok [0x00#8, 0x30#8, 0x09#8, 0x01#8, 0x01#8, 0x25#8, 0x77#8]])) =
      some (.ok (.dateTime ⟨2025, 1, 1, 9, 30, 0⟩)) ∧
    reported (exec .rtcGetDatetime (withBus [.ok [0x00#8, 0x00#8, 0x00#8, 0x01#8, 0x81#8, 0x00#8, 0x00#8]])) =
      some (.ok (.dateTime ⟨2000, 1, 1, 0, 0, 0⟩)) ∧
    reported (exec .rtcGetDatetime (withBus [.ok [0x00#8, 0x00#8, 0x72#8, 0x15#8, 0x06#8, 0x24#8, 0x00#8]])) =
      some (.ok (.dateTime ⟨2024, 6, 15, 32, 0, 0⟩)) ∧
    reported (exec .rtcGetDatetime (withBus [.err anError])) = some (.bus anError) := by decide

/-- T9, T10: the same bytes under the two layouts. -/
theorem test_rtcGetDatetime_layouts :
    reported (exec .rtcGetDatetime (withBus7 [.ok [0x00#8, 0x30#8, 0x09#8, 0x03#8, 0x01#8, 0x01#8, 0x25#8]])) =
      some (.ok (.dateTime ⟨2025, 1, 1, 9, 30, 0⟩)) ∧
    reported (exec .rtcGetDatetime (withBus [.ok [0x00#8, 0x30#8, 0x09#8, 0x03#8, 0x01#8, 0x01#8, 0x25#8]])) =
      some (.ok (.dateTime ⟨2001, 1, 3, 9, 30, 0⟩)) := by decide

/-- T11, T17. -/
theorem test_rtcSetDatetime_writes :
    recorded (exec (.rtcSetDatetime lastDay) (withBus [.ok []])) =
      some (.busW 0x68#7 [0x00#8, 0x58#8, 0x59#8, 0x23#8, 0x31#8, 0x12#8, 0x24#8] .ok) ∧
    reported (exec (.rtcSetDatetime lastDay) (withBus [.err anError])) = some (.bus anError) := by decide

/-- T14. -/
theorem test_rtcSetDatetime_refused :
    (nextOf (exec (.rtcSetDatetime ⟨2100, 1, 1, 0, 0, 0⟩) (withBus [.ok []]))).map
      (fun t => (t.refused, t.hist, t.bus)) = some (true, [], [.ok []]) := by decide

/-- W8, T21, T24, T25. -/
theorem test_rtcGetTemperature_vectors :
    reported (exec .rtcGetTemperature (withBus [.ok [0x19#8, 0x40#8]])) = some (.ok (.quarterDegrees 101)) ∧
    reported (exec .rtcGetTemperature (withBus [.ok [0xFF#8, 0xC0#8]])) = some (.ok (.quarterDegrees (-1))) ∧
    reported (exec .rtcGetTemperature (withBus [.ok [0x80#8, 0x00#8]])) = some (.ok (.quarterDegrees (-512))) ∧
    reported (exec .rtcGetTemperature (withBus [.ok [0x7F#8, 0xC0#8]])) = some (.ok (.quarterDegrees 511)) := by
  decide

/-- W9, T27, T29. -/
theorem test_rtcIsBusy_vectors :
    reported (exec .rtcIsBusy (withBus [.ok [0x04#8]])) = some (.ok (.bool true)) ∧
    reported (exec .rtcIsBusy (withBus [.ok [0xFB#8]])) = some (.ok (.bool false)) ∧
    recorded (exec .rtcIsBusy (withBus [.ok [0xFB#8]])) = some (.busWR 0x68#7 [0x0F#8] 1 (.ok [0xFB#8])) ∧
    reported (exec .rtcIsBusy (withBus [.err anError])) = some (.bus anError) := by decide

/-! ## Witnesses: the hypotheses of every statement can be met, each clause at a boundary -/

theorem witness_EncodeOfDecodeIsTheWord :
    decode 0x03FF#16 .absent = .ok (.segEncode 255#8 true true) ∧
    decode 0x1500#16 (.list []) = .ok (.srPushBytesAndTransfer []) := by decide

/-- Both ends of every range of R115's list, and the words beside them that are not reserved. -/
theorem witness_reservedWord :
    (∀ w ∈ [0x4000#16, 0xFFFF#16, 0x0400#16, 0x0FFF#16, 0x1900#16, 0x1FFF#16, 0x2500#16, 0x2FFF#16, 0x3200#16,
      0x3FFF#16, 0x1001#16, 0x12FF#16, 0x1301#16, 0x1501#16, 0x1701#16, 0x1801#16, 0x2001#16, 0x24FF#16],
      reservedWord w) ∧
    ∀ w ∈ [0x03FF#16, 0x0000#16, 0x1000#16, 0x11FF#16, 0x1800#16, 0x2400#16, 0x3000#16, 0x31FF#16],
      ¬ reservedWord w := by
  unfold reservedWord reservedFields
  constructor <;> intro w hw <;> fin_cases hw <;> decide

theorem witness_OutOfBandOperandIsChecked :
    (∀ bytes, (Oob.absent : Oob) ≠ .list bytes) ∧ (∀ t, Oob.list [] ≠ .record t) ∧
    ¬ reservedWord 0x1100#16 ∧ (unitField 0x1100#16).toNat ≠ 0 ∧ Oob.list [] ≠ .absent := by
  refine ⟨fun _ => by simp, fun _ => by simp, ?_, by decide, by decide⟩
  unfold reservedWord reservedFields
  decide

theorem witness_StepRunsThePresentedOperation :
    (State.reset.withCall 0x1000#16 .absent).host = .call 0x1000#16 .absent :: [] ∧
    decode 0x1000#16 .absent = .ok .srInit := by decide

/-- One call for each reason to refuse it. -/
theorem witness_UndecodableCallIsRefused :
    (State.reset.withCall 0xFFFF#16 .absent).host = .call 0xFFFF#16 .absent :: [] ∧
    decode 0xFFFF#16 .absent = .refused .reservedEncoding ∧
    decode 0x1200#16 .absent = .refused .missingOperand ∧
    decode 0x1000#16 (.list []) = .refused .extraOperand := by decide

theorem witness_AgentsMoveByTheSchedule :
    ({ ready5F with host := [.elapse] } : State).host = .elapse :: [] ∧
    ({ ready5F with host := [.cancel] } : State).host = .cancel :: [] ∧
    ({ waiting .transfer [] .sLatch ⟨.zero, .one, .zero⟩ with host := [.await] } : State).srPc ≠ .idle ∧
    ({ ready5F with host := [.await] } : State).srPc = .idle ∧ ready5F.host = [] ∧ ready5F.final :=
  ⟨rfl, rfl, by decide, rfl, rfl, rfl, rfl, rfl, rfl⟩

theorem witness_noDot : defaultSegTable.noDot ∧ State.reset.params.segTable.noDot ∧
    State.reset.params.segTable = defaultParams.segTable := by
  unfold SegTable.noDot
  decide

/-- Both laws' ranges meet between 9 and 10. -/
theorem witness_SegEncodeLaws : (9#8).toNat ≤ 9 ∧ 10 ≤ (10#8).toNat ∧ 10 ≤ (255#8).toNat := by decide

theorem witness_BcdEnc : (99#8).toNat ≤ 99 ∧ 99 < (100#8).toNat ∧
    (0x99#8 >>> 4).toNat ≤ 9 ∧ (0x99#8 &&& 0x0F#8).toNat ≤ 9 := by decide

theorem witness_ChainReactsToRisingEdges : ready5F.lines.clk = .zero ∧ ready5F.lines.latch = .zero := by decide

theorem witness_NoEdgeWithoutARise :
    (waiting .transfer [] .sLatch ⟨.zero, .one, .zero⟩).lines.get .latch = .one ∧
    State.reset.lines.get .clk = .x ∧
    ((ready 1 r5F rX).drive .latch true).store ≠ (ready 1 r5F rX).store ∧
    ((ready 1 r5F rX).drive .clk true).shift ≠ (ready 1 r5F rX).shift := by decide

theorem witness_SrInitDrivesTheLinesLow :
    State.reset.srPc = .idle ∧ (waiting .transfer [] .sLatch ⟨.zero, .one, .zero⟩).srPc ≠ .idle := by decide

theorem witness_usable_and_at_rest : ready5F.srUsable ∧ ready5F.atRest ∧
    ready5F.shift.length = 8 * ready5F.params.nChips :=
  ⟨⟨rfl, rfl⟩, ⟨rfl, rfl⟩, rfl⟩

/-- Every push form that pushes a byte. -/
theorem witness_PushFormStartsWithBitSeven :
    pushForm (.srPushByte 0xA5#8) = some (.pushByte, [0xA5#8]) ∧
    pushForm (.srPushBytes [0xCC#8, 0x9B#8]) = some (.pushBytes, [0xCC#8, 0x9B#8]) ∧
    pushForm (.srPushByteAndTransfer 0x0C#8) = some (.pushByteAndTransfer, [0x0C#8]) ∧
    pushForm (.srPushBytesAndTransfer [0x01#8]) = some (.pushBytesAndTransfer, [0x01#8]) ∧
    pushForm (.srSetOutputs 0x3C#8) = some (.setOutputs, [0x3C#8]) ∧
    pushForm .srClearOutputs = some (.clearOutputs, [0x00#8]) ∧
    pushForm .srSetAllOutputs = some (.setAllOutputs, [0xFF#8]) := by decide

theorem witness_EmptyPushForm : ready5F.srUsable ∧ ready5F.lines.latch = .zero ∧
    pushForm .srTransfer = some (.transfer, []) ∧
    pushForm (.srPushBytesAndTransfer []) = some (.pushBytesAndTransfer, []) :=
  ⟨⟨rfl, rfl⟩, rfl, rfl, rfl⟩

theorem witness_PushFormBeforeInitFaults : State.reset.srPc = .idle ∧ State.reset.srReady = false ∧
    pushForm .srTransfer = some (.transfer, []) ∧ (nextOf (exec .srInit State.reset)).isSome = true := by decide

theorem witness_OverlappingSrCallFaults : isSr .srInit = true ∧ isSr (.srPushBytes []) = true ∧
    (waiting .pushByte [0x12#8] (.sHigh 0 3) ⟨.one, .zero, .zero⟩).srPc ≠ .idle ∧
    isSr .rtcInit = false ∧ (nextOf (exec .rtcInit (withBus [.err anError]))).isSome = true := by decide

/-- A state for each clause: the delays of SR.INIT and of a bit, the end of a bit, of a byte, and of a push with and
without a latch, and the latch. -/
theorem witness_SequencerTransitions :
    let known : Lines := ⟨.one, .zero, .one⟩
    known.known ∧ ready5F.srPc = .idle ∧ (waiting .init [] .sInit known).srPc = .sInit ∧
    (waiting .pushByte [0xFF#8] (.sSetup 0 7) ⟨.zero, .zero, .one⟩).lines.clk = .zero ∧
    (waiting .pushByte [0xFF#8] (.sHigh 0 1) known).srBytes[0]? = some 0xFF#8 ∧ 0 < (1 : Fin 8).val ∧
    (waiting .pushBytes [0xFF#8, 0x80#8] (.sHigh 0 0) known).srBytes[0 + 1]? = some 0x80#8 ∧
    (waiting .pushByte [0xFF#8] (.sHigh 0 0) known).srBytes[0 + 1]? = none ∧
    SrOp.pushByte.latches = false ∧ SrOp.setOutputs.latches = true ∧
    (waiting .transfer [] .sLatch ⟨.zero, .one, .zero⟩).srPc = .sLatch :=
  ⟨⟨by decide, by decide, by decide⟩, rfl, rfl, rfl, rfl, by decide, rfl, rfl, rfl, rfl, rfl⟩

theorem witness_LineLeftHighLosesTheNextEdge :
    (nextOf (srResume (waiting .pushByte [0x01#8] (.sSetup 0 7) ⟨.one, .zero, .zero⟩))).isSome = true ∧
    (waiting .pushByte [0x01#8] (.sSetup 0 7) ⟨.one, .zero, .zero⟩).lines.clk = .one ∧
    ({ ready5F with lines := ⟨.zero, .one, .zero⟩ } : State).lines.latch = .one ∧
    (nextOf (srResume (waiting .pushByte [0x01#8] (.sHigh 0 0) ⟨.one, .one, .one⟩))).isSome = true := by decide

/-- Two chips and two bytes; the last chip's number is 1. -/
theorem witness_CascadeByteOrder :
    let s := ready 2 (r34 ++ r12) (rX ++ rX)
    pushForm (.srPushBytes [0xCC#8, 0x9B#8]) = some (.pushBytes, [0xCC#8, 0x9B#8]) ∧ s.srUsable ∧ s.atRest ∧
    s.shift.length = 8 * s.params.nChips ∧ [0xCC#8, 0x9B#8].length = s.params.nChips ∧
    [0xCC#8, 0x9B#8][s.params.nChips - 1 - 0]? = some 0x9B#8 ∧
    [0xCC#8, 0x9B#8][s.params.nChips - 1 - 1]? = some 0xCC#8 :=
  ⟨rfl, ⟨rfl, rfl⟩, ⟨rfl, rfl⟩, rfl, rfl, rfl, rfl⟩

theorem witness_SingleChipEndsWithTheByte : pushForm (.srPushByte 0xB0#8) = some (.pushByte, [0xB0#8]) ∧
    ready5F.srUsable ∧ ready5F.atRest ∧ ready5F.params.nChips = 1 ∧ ready5F.shift.length = 8 :=
  ⟨rfl, ⟨rfl, rfl⟩, ⟨rfl, rfl⟩, rfl, rfl⟩

/-- A step that changes STORE, and the last delay but one of a one-byte push. -/
theorem witness_AtomicVisibleUpdate :
    (nextOf (step ((ready 1 r5F rX).withCall 0x1300#16 .absent))).map (·.store) = some r5F ∧
    (ready 1 r5F rX).store ≠ r5F ∧ ready5F.srUsable ∧
    (nextOf (exec (.srPushByte 0xB0#8) ready5F)).isSome = true ∧ 0 < 16 * [0xB0#8].length ∧
    15 < 16 * [0xB0#8].length :=
  ⟨by decide, by decide, ⟨rfl, rfl⟩, by decide, by decide, by decide⟩

theorem witness_CancelStopsAtTheSuspensionPoint :
    (waiting .transfer [] .sLatch ⟨.zero, .one, .zero⟩).srPc ≠ .idle ∧ ready5F.srPc = .idle ∧
    isSr (.bcdDec 0x00#8) = false ∧ (nextOf (exec (.bcdDec 0x00#8) ready5F)).isSome = true := by decide

/-- After no delay, one delay, and for a bare latch: a state at each of the three positions of a push form. -/
theorem witness_StateLeftByCancellation :
    (nextOf (exec (.srPushByte 0xB0#8) ready5F)).map (·.srPc) = some (.sSetup 0 7) ∧
    ((nextOf (exec (.srPushByte 0xB0#8) ready5F)).bind fun t => (nextOf (srResumeTimes 1 t)).map (·.srPc)) =
      some (.sHigh 0 7) ∧
    (nextOf (exec .srTransfer ready5F)).map (·.srPc) = some .sLatch ∧
    (nextOf (exec .srInit State.reset)).map (·.srPc) = some .sInit ∧ State.reset.srPc = .idle := by decide

theorem witness_AliasesEndAsPushByteAndTransfer : ready5F.srUsable ∧
    (Instr.srSetOutputs 0x3C#8 = .srSetOutputs 0x3C#8) ∧ (Instr.srClearOutputs = .srClearOutputs ∧ 0x00#8 = 0x00#8) ∧
    (Instr.srSetAllOutputs = .srSetAllOutputs ∧ 0xFF#8 = 0xFF#8) :=
  ⟨⟨rfl, rfl⟩, rfl, ⟨rfl, rfl⟩, rfl, rfl⟩

/-- Exactly as many bytes as chips, over unknown bits. -/
theorem witness_FullChainIsKnownAfterTheLatch :
    let s := ready 1 rX rX
    pushForm .srClearOutputs = some (.clearOutputs, [0x00#8]) ∧ s.srUsable ∧ s.atRest ∧
    s.shift.length = 8 * s.params.nChips ∧ SrOp.clearOutputs.latches = true ∧ s.params.nChips ≤ [0x00#8].length :=
  ⟨rfl, ⟨rfl, rfl⟩, ⟨rfl, rfl⟩, rfl, rfl, Nat.le_refl _⟩

/-- P1's byte: 7 with its point, on one chip. -/
theorem witness_LatchedDigitLightsItsSegments :
    pushForm (.srSetOutputs 0x3C#8) = some (.setOutputs, [0x3C#8]) ∧ SrOp.setOutputs.latches = true ∧
    ready5F.srUsable ∧ ready5F.atRest ∧ ready5F.shift.length = 8 * ready5F.params.nChips ∧
    [0x3C#8].length = ready5F.params.nChips ∧ ready5F.params.segTable = defaultParams.segTable ∧
    [0x3C#8][ready5F.params.nChips - 1 - 0]? = some 0x3C#8 ∧
    exec (.segEncode 7#8 true true) ready5F =
      .next { ready5F with outcomes := ready5F.outcomes ++ [.ok (.u8 0x3C#8)] } :=
  ⟨rfl, rfl, ⟨rfl, rfl⟩, ⟨rfl, rfl⟩, rfl, rfl, rfl, rfl, rfl⟩

theorem witness_SerializedCallCompletes :
    let s : State := { ready5F with host := [.call 0x1300#16 .absent, .await] }
    pushForm .srTransfer = some (.transfer, []) ∧ s.srUsable ∧
    s.host = .call Instr.srTransfer.word Instr.srTransfer.oob :: .await :: [] :=
  ⟨rfl, ⟨rfl, rfl⟩, rfl⟩

theorem witness_OracleAnswersFitTheTransaction :
    (withBus [.ok [0x04#8]]).bus = .ok [0x04#8] :: [] ∧ (withBus [.ok [0x04#8]]).readReply 1 = .ok [0x04#8] ∧
    (withBus [.err anError]).bus = .err anError :: [] ∧ isRtc .rtcIsBusy = true ∧
    Instr.rtcIsBusy.wellFormed = true ∧ (nextOf (exec .rtcIsBusy (withBus [.err anError]))).isSome = true := by
  decide

theorem witness_GetDatetimeDecodesTheBlock :
    (withBus [.ok [0x59#8, 0x59#8, 0x23#8, 0x31#8, 0x12#8, 0x99#8, 0x00#8]]).readReply 7 =
      .ok [0x59#8, 0x59#8, 0x23#8, 0x31#8, 0x12#8, 0x99#8, 0x00#8] ∧
    (withBus [.err anError]).readReply 7 = .err anError := by decide

/-- Both sides of the range check. -/
theorem witness_SetDatetimeWritesOrRefuses :
    dateTimeInRange ⟨2099, 12, 31, 23, 59, 59⟩ = true ∧ dateTimeInRange ⟨2100, 1, 1, 0, 0, 0⟩ = false := by decide

/-- A write under each layout, with the bytes it records. -/
theorem witness_WrittenFlagBitsAreClear :
    (∃ t b, exec (.rtcSetDatetime lastDay) (withBus [.ok []]) = .next t ∧
      t.hist = (withBus [.ok []]).hist ++ [.busW 0x68#7 (0x00#8 :: b) .ok]) ∧
    ∃ t b, exec (.rtcSetDatetime lastDay) (withBus7 [.ok []]) = .next t ∧
      t.hist = (withBus7 [.ok []]).hist ++ [.busW 0x68#7 (0x00#8 :: b) .ok] :=
  ⟨⟨_, _, rfl, rfl⟩, _, _, rfl, rfl⟩

/-- And the read answered with them, under DOC6. -/
theorem witness_SetThenGetGivesTheDateBack :
    ∃ t, exec (.rtcSetDatetime lastDay) (withBus [.ok []]) = .next t ∧
      t.hist = (withBus [.ok []]).hist ++
        [.busW 0x68#7 (0x00#8 :: [0x58#8, 0x59#8, 0x23#8, 0x31#8, 0x12#8, 0x24#8]) .ok] ∧
      (withBus [.ok []]).params.masks = defaultParams.masks ∧
      (withBus [.ok ([0x58#8, 0x59#8, 0x23#8, 0x31#8, 0x12#8, 0x24#8] ++ [0xFF#8])]).bus =
        .ok ([0x58#8, 0x59#8, 0x23#8, 0x31#8, 0x12#8, 0x24#8] ++ [0xFF#8]) :: [] :=
  ⟨_, rfl, rfl, rfl, rfl⟩

theorem witness_GetTemperatureIsTenBitSigned :
    (withBus [.ok [0x80#8, 0x00#8]]).readReply 2 = .ok [0x80#8, 0x00#8] ∧
    (withBus [.ok [0x7F#8, 0xC0#8]]).readReply 2 = .ok [0x7F#8, 0xC0#8] ∧
    (withBus [.err anError]).readReply 2 = .err anError := by decide

theorem witness_IsBusyReportsBitTwo :
    (withBus [.ok [0x04#8]]).readReply 1 = .ok [0x04#8] ∧ (withBus [.err anError]).readReply 1 = .err anError := by
  decide

theorem witness_OneTransactionPerRtcOperation : isRtc .rtcGetTemperature = true ∧
    isRtc (.rtcSetDatetime ⟨2100, 1, 1, 0, 0, 0⟩) = true ∧
    (Instr.rtcSetDatetime ⟨2100, 1, 1, 0, 0, 0⟩).wellFormed = false := by decide

/-- A step with a write, and one with a read. -/
theorem witness_OnlyTheseRegistersAreReached :
    recorded (step ((withBus [.ok []]).withCall 0x2200#16 (.record lastDay))) =
      some (.busW 0x68#7 [0x00#8, 0x58#8, 0x59#8, 0x23#8, 0x31#8, 0x12#8, 0x24#8] .ok) ∧
    recorded (step ((withBus [.err anError]).withCall 0x2300#16 .absent)) =
      some (.busWR 0x68#7 [0x11#8] 2 (.err anError)) := by decide

/-- A configuration that is built, at the bounds, and one refused for each reason. -/
theorem witness_OnlyAdmissibleConfigurationsAreBuilt :
    State.configure { defaultParams with tSetup := 100 } = some (State.powerUp { defaultParams with tSetup := 100 }) ∧
    ({ defaultParams with nChips := 0 } : Params).nChips = 0 ∧
    ({ defaultSegTable with d0 := 0x00#8 } : SegTable).d0 ≠ 0x5F#8 ∧
    ({ defaultSegTable with d1 := 0x5F#8 } : SegTable).d1 ≠ 0x0C#8 ∧
    ({ defaultSegTable with d8 := 0xFF#8 } : SegTable).d8 ≠ 0xDF#8 ∧
    ({ defaultSegTable with d9 := 0xFE#8 } : SegTable).d9.getLsbD 5 = true ∧
    ({ defaultParams with tSetup := 99 } : Params).tSetup < defaultParams.needs.setup ∧
    ({ defaultParams with tHigh := 0 } : Params).tHigh < defaultParams.needs.high ∧
    ({ defaultParams with tLatch := 99 } : Params).tLatch < defaultParams.needs.latch := by decide

/-- What a configuration at every bound meets: one chip, the source's rows, no decimal-point bit, delays just long enough. -/
theorem witness_anAdmissibleConfiguration :
    let p : Params := { defaultParams with tSetup := 100, tHigh := 100, tLatch := 100 }
    1 ≤ p.nChips ∧ p.segTable.d0 = 0x5F#8 ∧ p.segTable.d1 = 0x0C#8 ∧ p.segTable.d8 = 0xDF#8 ∧ p.segTable.noDot ∧
      p.needs.setup ≤ p.tSetup ∧ p.needs.high ≤ p.tHigh ∧ p.needs.latch ≤ p.tLatch := by
  unfold SegTable.noDot
  decide

/-- The invariant at S_SETUP(0,0) of a one-byte push, the last bit, from which a step goes on. -/
theorem witness_Inv : (waiting .pushByte [0x01#8] (.sSetup 0 0) ⟨.zero, .zero, .one⟩).Inv ∧
    (nextOf (step (waiting .pushByte [0x01#8] (.sSetup 0 0) ⟨.zero, .zero, .one⟩))).isSome = true :=
  ⟨{ config := by decide
     shift_length := rfl
     store_length := rfl
     lines_known := fun _ => ⟨by decide, by decide, by decide⟩
     position := ⟨rfl, ⟨.pushByte, rfl, by decide⟩, 0x01#8, rfl, rfl⟩ }, by decide⟩

/-- A step of a machine with all three marks set. -/
theorem witness_MarksAndHistoryOnlyGrow :
    let s : State := { ready5F with faults := ⟨true, true⟩, refused := true }
    step s = .next s := rfl

theorem witness_OnlyOwnersUseLinesAndBus :
    reported (exec .rtcIsBusy (withBus [.err anError])) = some (.bus anError) ∧
    (nextOf (exec .srInit State.reset)).isSome = true ∧
    (nextOf (srResume (waiting .transfer [] .sLatch ⟨.zero, .one, .zero⟩))).isSome = true := by decide

theorem witness_DriversShareNothing : isSr (.segEncode 8#8 true true) = false ∧ isSr .srTransfer = true ∧
    isRtc .rtcInit = true ∧ State.reset.params = (withBus []).params ∧ State.reset.bus = (withBus []).bus ∧
    State.reset.draws = (withBus []).draws := by decide

end Sys2Proof.Tests
end

section
/-! PROOF of O55. What the block's units leave to one another (spec/00_scope.md R15). -/

namespace Sys2Proof.Machine

/-! ## Classifying operations -/

/-- Every SR operation is `srStart` of some operation and bytes (41_shift_register.md R175 to R182). -/
theorem exec_isSr {i : Instr} (hi : isSr i = true) (s : State) :
    ∃ op bytes, exec i s = srStart i op bytes s := by
  simp only [isSr, Bool.or_eq_true, decide_eq_true_eq, Option.isSome_iff_exists] at hi
  rcases hi with rfl | ⟨⟨op, bytes⟩, hf⟩
  · exact ⟨.init, [], rfl⟩
  · exact ⟨op, bytes, (exec_pushForm hf s).2⟩

/-! ## What SEG, BCD and RTC operations leave alone -/

theorem State.sameDriver_deliver (s : State) (o : OpOutcome) : s.sameDriver (s.deliver o) := by
  simp [State.sameDriver]

theorem State.sameDriver_refuse (s : State) (o : OpOutcome) : s.sameDriver (s.refuse o) := by
  simp [State.sameDriver]

theorem State.sameDriver_memRead_deliver (s : State) (reg : Byte) (n : Nat) (o : OpOutcome) :
    s.sameDriver ((s.memRead reg n).deliver o) := by
  simp [State.sameDriver]

theorem State.sameDriver_memWrite_deliver (s : State) (reg : Byte) (bytes : List Byte) (o : OpOutcome) :
    s.sameDriver ((s.memWrite reg bytes).deliver o) := by
  simp [State.sameDriver]

/-- Operations of the other units leave the SR driver, the chain and the fault bits as they were. -/
theorem exec_sameDriver {i : Instr} {s t : State} (hi : isSr i = false) (h : exec i s = .next t) :
    s.sameDriver t := by
  cases i with
  | segEncode | bcdDec => cases h; exact s.sameDriver_deliver _
  | rtcInit | rtcGetDatetime | rtcGetTemperature | rtcIsBusy =>
    cases h; exact s.sameDriver_memRead_deliver _ _ _
  | rtcSetDatetime =>
    cases h
    split
    · exact s.sameDriver_memWrite_deliver _ _ _
    · exact s.sameDriver_refuse _
  | bcdEnc =>
    cases h
    split
    · exact s.sameDriver_deliver _
    · exact s.sameDriver_refuse _
  | srInit | srPushByte | srPushBytes | srTransfer | srPushByteAndTransfer | srPushBytesAndTransfer | srSetOutputs
  | srClearOutputs | srSetAllOutputs => simp [isSr, pushForm] at hi

/-! ## What the SR unit leaves alone -/

/-- The oracle's coming answers, the refusal mark and the fault bits are the same in both states. -/
def State.sameBusAndMarks (s t : State) : Prop := t.bus = s.bus ∧ t.refused = s.refused ∧ t.faults = s.faults

theorem State.sameBusAndMarks.trans {s t u : State} (h : s.sameBusAndMarks t) (h' : t.sameBusAndMarks u) :
    s.sameBusAndMarks u := by
  simp_all [State.sameBusAndMarks]

theorem State.sameBusAndMarks_of_sameButWires {s t : State} (h : s.sameButWires t) : s.sameBusAndMarks t := by
  simp_all [State.sameButWires, State.sameBusAndMarks]

theorem State.dataSetup_sameBusAndMarks (s : State) (j : Nat) (i : Fin 8) (v : Byte) :
    s.sameBusAndMarks (s.dataSetup j i v) :=
  State.sameBusAndMarks_of_sameButWires (s.dataSetup_sameButWires j i v)

theorem State.afterPush_sameBusAndMarks (s : State) (op : SrOp) : s.sameBusAndMarks (s.afterPush op) := by
  rcases s.afterPush_cases op with ⟨-, h⟩ | ⟨-, h⟩ <;> rw [h]
  · simp [State.latchUp_eq, State.sameBusAndMarks]
  · simp [State.sameBusAndMarks]

theorem State.byteEnd_sameBusAndMarks (s : State) (j : Nat) (op : SrOp) : s.sameBusAndMarks (s.byteEnd j op) := by
  have hrest := State.sameBusAndMarks_of_sameButWires s.dataRest_sameButWires
  unfold State.byteEnd
  split
  · exact hrest.trans (State.dataSetup_sameBusAndMarks _ _ _ _)
  · exact hrest.trans (State.afterPush_sameBusAndMarks _ op)

theorem State.bitEnd_sameBusAndMarks (s : State) (j : Nat) (i : Fin 8) (v : Byte) (op : SrOp) :
    s.sameBusAndMarks (s.bitEnd j i v op) := by
  have hlow : s.sameBusAndMarks (s.driveLow .clk) := by simp [State.sameBusAndMarks]
  unfold State.bitEnd
  split
  · exact hlow.trans (State.dataSetup_sameBusAndMarks _ _ _ _)
  · exact hlow.trans (State.byteEnd_sameBusAndMarks _ j op)

theorem State.pushStart_sameBusAndMarks (s : State) (op : SrOp) (bytes : List Byte) :
    s.sameBusAndMarks (s.pushStart op bytes) := by
  have hbegin : s.sameBusAndMarks (s.begin op bytes) := by simp [State.sameBusAndMarks]
  cases bytes with
  | nil => exact hbegin.trans (State.afterPush_sameBusAndMarks _ op)
  | cons v vs =>
    exact hbegin.trans (State.dataSetup_sameBusAndMarks _ 0 7 v)

/-- The end of a delay uses no answer of the oracle and sets no mark. -/
theorem srResume_sameBusAndMarks {s t : State} (h : srResume s = .next t) : s.sameBusAndMarks t := by
  rcases srResume_cases s h with ⟨-, ht⟩ | ⟨-, ht⟩ | ⟨j, i, -, ht⟩ | ⟨j, i, v, op, -, -, -, ht⟩ |
    ⟨j, i, -, -, ht⟩ | ⟨-, ht⟩ <;> cases ht
  · simp [State.sameBusAndMarks]
  · simp [State.sameBusAndMarks]
  · simp [State.sameBusAndMarks]
  · exact s.bitEnd_sameBusAndMarks j i v op
  · simp [State.sameBusAndMarks]

/-- Admitting an SR operation uses no answer of the oracle and refuses nothing; it may set a fault bit. -/
theorem srStart_bus_refused {i : Instr} {op : SrOp} {bytes : List Byte} {s t : State}
    (h : srStart i op bytes s = .next t) : t.bus = s.bus ∧ t.refused = s.refused := by
  rcases srStart_cases s h with ⟨-, ht⟩ | ⟨-, -, ht⟩ | ⟨-, -, -, ht⟩ | ⟨-, -, -, ht⟩ <;> cases ht
  · simp
  · simp [State.initStart_eq]
  · simp
  · obtain ⟨hbus, hrefused, -⟩ := s.pushStart_sameBusAndMarks op bytes
    exact ⟨hbus, hrefused⟩

/-! ## What an RTC operation adds -/

/-- Going from `s` to `t` and from `s'` to `t'` adds the same events and the same reports. -/
def State.addAlike (s s' t t' : State) : Prop :=
  ∃ (evs : List Event) (o : List OpOutcome), t.hist = s.hist ++ evs ∧ t'.hist = s'.hist ++ evs ∧
    t.outcomes = s.outcomes ++ o ∧ t'.outcomes = s'.outcomes ++ o

section
variable {s s' : State} (hbus : s.bus = s'.bus) (hdraws : s.draws = s'.draws)
include hbus hdraws

theorem State.nextAnswer_congr : s.nextAnswer = s'.nextAnswer := by
  simp only [State.nextAnswer, hbus, hdraws]

theorem State.readReply_congr (n : Nat) : s.readReply n = s'.readReply n := by
  simp only [State.readReply, State.nextAnswer_congr hbus hdraws, hdraws]

theorem State.writeReply_congr : s.writeReply = s'.writeReply := by
  simp only [State.writeReply, State.nextAnswer_congr hbus hdraws]

theorem State.addAlike_memRead (reg : Byte) (n : Nat) (report : ReadReply → OpOutcome) :
    s.addAlike s' ((s.memRead reg n).deliver (report (s.readReply n)))
      ((s'.memRead reg n).deliver (report (s'.readReply n))) := by
  rw [State.readReply_congr hbus hdraws n]
  refine ⟨[.busWR rtcAddr [reg] n (s'.readReply n)], [report (s'.readReply n)], ?_⟩
  simp [State.readReply_congr hbus hdraws n]

theorem State.addAlike_memWrite (reg : Byte) (bytes : List Byte) :
    s.addAlike s' ((s.memWrite reg bytes).deliver (writeOutcome s.writeReply))
      ((s'.memWrite reg bytes).deliver (writeOutcome s'.writeReply)) := by
  rw [State.writeReply_congr hbus hdraws]
  refine ⟨[.busW rtcAddr (reg :: bytes) s'.writeReply], [writeOutcome s'.writeReply], ?_⟩
  simp [State.writeReply_congr hbus hdraws]

end

theorem State.addAlike_refuse (s s' : State) (o : OpOutcome) : s.addAlike s' (s.refuse o) (s'.refuse o) :=
  ⟨[], [o], by simp⟩

/-- An RTC operation adds the same events and reports in any two states with the same parameters, coming answers and
count of draws. -/
theorem exec_isRtc_addAlike {i : Instr} {s s' : State} (hi : isRtc i = true) (hparams : s.params = s'.params)
    (hbus : s.bus = s'.bus) (hdraws : s.draws = s'.draws) :
    ∃ t t', exec i s = .next t ∧ exec i s' = .next t' ∧ s.addAlike s' t t' := by
  refine (exec_next i s).imp fun t ht => (exec_next i s').imp fun t' ht' => ⟨ht, ht', ?_⟩
  cases i with
  | rtcInit | rtcGetTemperature | rtcIsBusy =>
    cases ht; cases ht'; exact State.addAlike_memRead hbus hdraws _ _ _
  | rtcGetDatetime =>
    cases ht; cases ht'
    rw [hparams]
    exact State.addAlike_memRead hbus hdraws _ _ _
  | rtcSetDatetime d =>
    cases ht; cases ht'
    rw [hparams, hdraws]
    split
    · exact State.addAlike_memWrite hbus hdraws _ _
    · exact State.addAlike_refuse _ _ _
  | segEncode | srInit | srPushByte | srPushBytes | srTransfer | srPushByteAndTransfer | srPushBytesAndTransfer
  | srSetOutputs | srClearOutputs | srSetAllOutputs | bcdDec | bcdEnc => simp [isRtc] at hi

/-- Settles O55, by what each unit leaves alone and what an RTC operation adds. -/
theorem driversShareNothing : Obligations.DriversShareNothing := by
  refine ⟨fun i s t hi h => exec_sameDriver hi h, fun i s t hi h => ?_, fun s t h => srResume_sameBusAndMarks h,
    fun i s s' hi hparams hbus hdraws => ?_⟩
  · obtain ⟨op, bytes, he⟩ := exec_isSr hi s
    exact srStart_bus_refused (he ▸ h)
  · obtain ⟨t, t', ht, ht', evs, o, hadd⟩ := exec_isRtc_addAlike hi hparams hbus hdraws
    exact ⟨t, t', evs, o, ht, ht', hadd⟩

end Sys2Proof.Machine
end

section
/-! PROOF of O51. Every step keeps the machine's invariant. -/

namespace Sys2Proof.Machine

/-! ## The invariant reads only the configuration, the SR unit and the chain -/

/-- The fields the invariant reads are the same in both states. -/
def State.sameSrUnit (s t : State) : Prop :=
  t.params = s.params ∧ t.lines = s.lines ∧ t.srReady = s.srReady ∧ t.srPc = s.srPc ∧ t.srOp = s.srOp ∧
    t.srBytes = s.srBytes ∧ t.shift = s.shift ∧ t.store = s.store

theorem State.sameSrUnit_of_sameDriver {s t : State} (h : s.sameDriver t) : s.sameSrUnit t := by
  simp_all [State.sameDriver, State.sameSrUnit]

theorem State.Inv.of_sameSrUnit {s t : State} (h : s.Inv) (hst : s.sameSrUnit t) : t.Inv := by
  obtain ⟨hparams, hlines, hready, hpc, hop, hbytes, hshift, hstore⟩ := hst
  constructor
  case config => rw [hparams]; exact h.config
  case shift_length => rw [hshift, hparams]; exact h.shift_length
  case store_length => rw [hstore, hparams]; exact h.store_length
  case lines_known => rw [hready, hpc, hlines]; exact h.lines_known
  case position => simpa only [State.positionOk, State.atBit, hpc, hop, hbytes, hready, hlines] using h.position

/-! ## The invariant at each position -/

section
variable {s : State} (h : s.Inv)
include h

theorem State.Inv.atBit_of_sSetup {j : Nat} {i : Fin 8} (hpc : s.srPc = .sSetup j i) : s.atBit j i := by
  simpa only [State.positionOk, hpc] using h.position

theorem State.Inv.atBit_of_sHigh {j : Nat} {i : Fin 8} (hpc : s.srPc = .sHigh j i) : s.atBit j i := by
  have hp := h.position
  simp only [State.positionOk, hpc] at hp
  exact hp.1

theorem State.Inv.ready_of_sLatch (hpc : s.srPc = .sLatch) : s.srReady = true := by
  have hp := h.position
  simp only [State.positionOk, hpc] at hp
  exact hp.1

end

/-! ## Between two positions -/

/-- What holds of an initialised SR unit wherever its sequencer stands, also between two suspension points: the
invariant without the position. -/
structure State.Live (s : State) : Prop where
  config : s.params.admissible = true
  shift_length : s.shift.length = 8 * s.params.nChips
  store_length : s.store.length = 8 * s.params.nChips
  lines_known : s.lines.known
  ready : s.srReady = true

theorem State.Inv.live {s : State} (h : s.Inv) (hready : s.srReady = true) : s.Live :=
  { h with lines_known := h.lines_known (.inl hready), ready := hready }

theorem Lines.known_zero : (⟨.zero, .zero, .zero⟩ : Lines).known := ⟨by decide, by decide, by decide⟩

theorem Lines.known_set {ls : Lines} (h : ls.known) (l : Line) {v : Level} (hv : v ≠ .x) : (ls.set l v).known := by
  obtain ⟨hclk, hlatch, hdata⟩ := h
  cases l
  case clk => exact ⟨hv, hlatch, hdata⟩
  case latch => exact ⟨hclk, hv, hdata⟩
  case data => exact ⟨hclk, hlatch, hv⟩

section
variable {s : State} (h : s.Live)
include h

theorem State.Live.inv (hp : s.positionOk) : s.Inv := { h with lines_known := fun _ => h.lines_known, position := hp }

theorem State.Live.driveLow (l : Line) : (s.driveLow l).Live :=
  { h with lines_known := Lines.known_set h.lines_known l (by decide) }

/-- An edge keeps the length of either register (10_state.md R52). -/
theorem State.Live.driveHigh (l : Line) : (s.driveHigh l).Live where
  config := by simpa using h.config
  shift_length := by
    rw [State.driveHigh_shift, State.driveHigh_params]
    split
    · exact shiftedIn_length h.shift_length
    · exact h.shift_length
  store_length := by
    rw [State.driveHigh_store, State.driveHigh_params]
    split
    · exact h.shift_length
    · exact h.store_length
  lines_known := by simpa using Lines.known_set h.lines_known l (v := .one) (by decide)
  ready := by simpa using h.ready

theorem State.Live.drive (l : Line) (v : Bool) : (s.drive l v).Live := by
  cases v
  · exact h.driveLow l
  · exact h.driveHigh l

theorem State.Live.suspend (kind : DelayKind) (p : SrPc) : (s.suspend kind p).Live := { h with }

theorem State.Live.begin (op : SrOp) (bytes : List Byte) : (s.begin op bytes).Live := { h with }

theorem State.Live.draw : s.draw.Live := { h with }

theorem State.Live.dataRest : s.dataRest.Live := by
  unfold State.dataRest
  split
  · exact h.draw.driveLow .data
  · exact h.draw

/-! ## The routines end in the invariant -/

theorem State.Live.dataSetup_inv {op : SrOp} {j : Nat} {v : Byte} (i : Fin 8) (hop : s.srOp = some op)
    (hne : op ≠ .init) (hv : s.srBytes[j]? = some v) : (s.dataSetup j i v).Inv := by
  have hlive : (s.dataSetup j i v).Live := (h.drive .data _).suspend .setup (.sSetup j i)
  refine hlive.inv ?_
  rw [State.dataSetup_eq]
  exact ⟨h.ready, ⟨op, hop, hne⟩, v, hv, rfl⟩

theorem State.Live.clockUp_inv {j : Nat} {i : Fin 8} (hbit : s.atBit j i) :
    ((s.driveHigh .clk).suspend .high (.sHigh j i)).Inv := by
  refine ((h.driveHigh .clk).suspend .high (.sHigh j i)).inv ?_
  simpa [State.positionOk, State.atBit] using hbit

theorem State.Live.srReturn_inv : s.srReturn.Inv :=
  State.Live.inv { h with } ⟨rfl, rfl⟩

theorem State.Live.latchUp_inv {op : SrOp} (hop : s.srOp = some op) (hlat : op.latches = true) : s.latchUp.Inv := by
  refine ((h.driveHigh .latch).suspend .latch .sLatch).inv ?_
  simp [State.positionOk, h.ready, hop, hlat]

theorem State.Live.afterPush_inv {op : SrOp} (hop : s.srOp = some op) : (s.afterPush op).Inv := by
  rcases s.afterPush_cases op with ⟨hlat, ha⟩ | ⟨-, ha⟩ <;> rw [ha]
  · exact h.latchUp_inv hop hlat
  · exact h.srReturn_inv

theorem State.Live.pushStart_inv {op : SrOp} (hne : op ≠ .init) (bytes : List Byte) : (s.pushStart op bytes).Inv := by
  cases bytes with
  | nil => exact (h.begin op []).afterPush_inv rfl
  | cons v vs => exact (h.begin op (v :: vs)).dataSetup_inv 7 rfl hne rfl

theorem State.Live.byteEnd_inv {op : SrOp} (j : Nat) (hop : s.srOp = some op) (hne : op ≠ .init) :
    (s.byteEnd j op).Inv := by
  obtain ⟨-, -, hop', hbytes, -⟩ := s.dataRest_sameButWires
  unfold State.byteEnd
  split
  case h_1 v hv => exact h.dataRest.dataSetup_inv 7 (hop' ▸ hop) hne (hbytes ▸ hv)
  case h_2 => exact h.dataRest.afterPush_inv (hop' ▸ hop)

theorem State.Live.bitEnd_inv {op : SrOp} {j : Nat} {v : Byte} (i : Fin 8) (hop : s.srOp = some op) (hne : op ≠ .init)
    (hv : s.srBytes[j]? = some v) : (s.bitEnd j i v op).Inv := by
  unfold State.bitEnd
  split
  · exact (h.driveLow .clk).dataSetup_inv (i - 1) hop hne hv
  · exact (h.driveLow .clk).byteEnd_inv j hop hne

end

/-! ## Every move of an agent keeps the invariant -/

theorem State.Inv.initStart {s : State} (h : s.Inv) : s.initStart.Inv := by
  rw [State.initStart_eq]
  exact { h with lines_known := fun _ => Lines.known_zero, position := ⟨rfl, rfl, rfl, rfl⟩ }

/-- The settle delay's end makes the unit ready: its lines have been known since SR.INIT began. -/
theorem State.Inv.setReady_of_sInit {s : State} (h : s.Inv) (hpc : s.srPc = .sInit) : (s.setReady true).Live :=
  { h with lines_known := h.lines_known (.inr (by simp [hpc])), ready := rfl }

theorem State.Inv.popHost {s : State} (h : s.Inv) : s.popHost.Inv := h.of_sameSrUnit (by simp [State.sameSrUnit])

/-- A cancelled operation leaves the lines as they are: known, if the unit stays initialised (60_exceptions.md R280). -/
theorem State.Inv.cancelSr {s : State} (h : s.Inv) : s.cancelSr.Inv := by
  by_cases hpc : s.srPc = .idle
  · rwa [s.cancelSr_idle hpc]
  · rw [s.cancelSr_eq hpc]
    exact { h with lines_known := fun _ => h.lines_known (.inr hpc), position := ⟨rfl, rfl⟩ }

theorem srResume_keeps_inv {s t : State} (h : s.Inv) (hst : srResume s = .next t) : t.Inv := by
  rcases srResume_cases s hst with ⟨-, ht⟩ | ⟨hpc, ht⟩ | ⟨j, i, hpc, ht⟩ | ⟨j, i, v, op, hpc, hv, hop, ht⟩ |
    ⟨j, i, -, -, ht⟩ | ⟨hpc, ht⟩ <;> cases ht
  · exact h
  · exact (h.setReady_of_sInit hpc).srReturn_inv
  · have hbit := h.atBit_of_sSetup hpc
    exact (h.live hbit.1).clockUp_inv hbit
  · obtain ⟨hready, ⟨op', hop', hne⟩, -⟩ := h.atBit_of_sHigh hpc
    obtain rfl : op = op' := by simpa [hop] using hop'
    exact (h.live hready).bitEnd_inv i hop hne hv
  · exact ((h.live (h.ready_of_sLatch hpc)).driveLow .latch).srReturn_inv

theorem srStart_keeps_inv {i : Instr} {op : SrOp} {bytes : List Byte} {s t : State} (h : s.Inv)
    (hst : srStart i op bytes s = .next t) : t.Inv := by
  rcases srStart_cases s hst with ⟨-, ht⟩ | ⟨-, -, ht⟩ | ⟨-, -, -, ht⟩ | ⟨-, hne, hready, ht⟩ <;> cases ht
  · exact h.of_sameSrUnit (by simp [State.sameSrUnit])
  · exact h.initStart
  · exact h.of_sameSrUnit (by simp [State.sameSrUnit])
  · exact (h.live hready).pushStart_inv hne bytes

theorem exec_keeps_inv {i : Instr} {s t : State} (h : s.Inv) (hst : exec i s = .next t) : t.Inv := by
  cases hi : isSr i with
  | true =>
    obtain ⟨op, bytes, he⟩ := exec_isSr hi s
    exact srStart_keeps_inv h (he ▸ hst)
  | false => exact h.of_sameSrUnit (State.sameSrUnit_of_sameDriver (exec_sameDriver hi hst))

/-- Settles O51, by what each move of an agent does to the invariant. -/
theorem everyStepKeepsTheInvariant : Obligations.EveryStepKeepsTheInvariant := by
  intro s t h hst
  rcases step_cases hst with ⟨w, oob, rest, i, -, -, ht⟩ | ⟨w, oob, rest, why, -, -, ht⟩ | ⟨rest, -, ht⟩ |
    ⟨rest, -, ht⟩ | ⟨rest, -, -, ht⟩ | ⟨rest, -, -, ht⟩ | ⟨-, ht⟩
  · exact exec_keeps_inv h.popHost ht.symm
  · cases ht
    exact h.popHost.of_sameSrUnit (State.sameSrUnit_of_sameDriver (State.sameDriver_refuse _ _))
  · cases ht
    exact h.popHost.cancelSr
  · exact srResume_keeps_inv h.popHost ht.symm
  · cases ht
    exact h.popHost
  · exact srResume_keeps_inv h ht.symm
  · exact srResume_keeps_inv h ht.symm

end Sys2Proof.Machine
end

section
/-! PROOF of O17. Driving a line with and without a rising edge (10_state.md R52, R53, R58). -/

namespace Sys2Proof.Machine

theorem Lines.set_get_self (ls : Lines) (l : Line) : ls.set l (ls.get l) = ls := by
  cases l <;> rfl

/-- A write of 1 that is no rising edge is recorded and sets the line, and the chain does not react. -/
theorem State.driveHigh_of_not_isRise {s : State} {l : Line} (h : isRise (s.lines.get l) s.draws = false) :
    s.driveHigh l =
      { s with
        lines := s.lines.set l .one
        hist := s.hist ++ [.lineSet l true]
        draws := edgeDraws (s.lines.get l) s.draws } := by
  simp [State.driveHigh, h, State.setLevel, State.record]

/-- What a rising edge makes of the chain. -/
theorem State.driveHigh_chain_of_isRise {s : State} {l : Line} (h : isRise (s.lines.get l) s.draws = true) :
    (s.driveHigh l).shift = (if l = .clk then shiftedIn s.params.nChips s.lines.data s.shift else s.shift) ∧
      (s.driveHigh l).store = if l = .latch then s.shift else s.store := by
  rw [State.driveHigh_shift, State.driveHigh_store]
  cases l with
  | clk => rw [Lines.get_clk] at h; simp [h]
  | latch => rw [Lines.get_latch] at h; simp [h]
  | data => simp

theorem State.drive_store_of_not_latch_high {s : State} {l : Line} {v : Bool} (h : ¬(l = .latch ∧ v = true)) :
    (s.drive l v).store = s.store := by
  cases v with
  | false => exact s.driveLow_store l
  | true =>
    have hl : l ≠ .latch := fun hl => h ⟨hl, rfl⟩
    exact (s.driveHigh_store l).trans (if_neg fun hrise => hl hrise.1)

theorem State.drive_shift_of_not_clk_high {s : State} {l : Line} {v : Bool} (h : ¬(l = .clk ∧ v = true)) :
    (s.drive l v).shift = s.shift := by
  cases v with
  | false => exact s.driveLow_shift l
  | true =>
    have hl : l ≠ .clk := fun hl => h ⟨hl, rfl⟩
    exact (s.driveHigh_shift l).trans (if_neg fun hrise => hl hrise.1)

/-- Settles O17: at 1 there is no edge, at X the draw decides, and only CLK and LATCH to 1 move the chain. -/
theorem noEdgeWithoutARise : Obligations.NoEdgeWithoutARise := by
  refine ⟨fun s l hone => ?_, fun s l hx => ⟨?_, s.driveHigh_lines l, ?_⟩, fun s l v => ⟨?_, ?_⟩⟩
  · have hsame : s.lines.set l .one = s.lines := hone ▸ s.lines.set_get_self l
    exact (State.driveHigh_of_not_isRise (by simp [hone])).trans (by simp [hsame, hone])
  · exact (s.driveHigh_draws l).trans (by simp [hx])
  · cases hrise : isRise (s.lines.get l) s.draws with
    | false =>
      left
      simp [State.drive, State.driveHigh_of_not_isRise hrise]
    | true => exact .inr (State.driveHigh_chain_of_isRise hrise)
  · exact not_imp_comm.mp State.drive_store_of_not_latch_high
  · exact not_imp_comm.mp State.drive_shift_of_not_clk_high

end Sys2Proof.Machine
end

section
/-! PROOF of O50. Which configurations a block is built of, and the digits every block shows. -/

namespace Sys2Proof.Machine

/-- The conditions of R6, R144 and R323, one by one. -/
theorem admissible_iff_conditions (p : Params) : p.admissible = true ↔
    1 ≤ p.nChips ∧ p.segTable.d0 = 0x5F#8 ∧ p.segTable.d1 = 0x0C#8 ∧ p.segTable.d8 = 0xDF#8 ∧ p.segTable.noDot ∧
      p.needs.setup ≤ p.tSetup ∧ p.needs.high ≤ p.tHigh ∧ p.needs.latch ≤ p.tLatch := by
  simp only [Params.admissible_iff, SegTable.admissible_iff, and_assoc]

/-- Settles O50, by the conditions of an admissible configuration, which the invariant keeps. -/
theorem onlyAdmissibleConfigurationsAreBuilt : Obligations.OnlyAdmissibleConfigurationsAreBuilt := by
  refine ⟨fun p s hs => ?_, fun p hbad => ?_, fun p hn h0 h1 h8 hdot hsetup hhigh hlatch => ?_,
    fun s decimal pattern h hmem => ?_⟩
  · obtain ⟨hadm, hpower⟩ := State.configure_eq_some.mp hs
    exact ⟨hpower.symm, (admissible_iff_conditions p).mp hadm⟩
  · rw [State.configure_eq_none, Bool.eq_false_iff]
    intro hadm
    obtain ⟨hn, h0, h1, h8, hdot, hsetup, hhigh, hlatch⟩ := (admissible_iff_conditions p).mp hadm
    rcases hbad with hbad | hbad | hbad | hbad | hbad | hbad | hbad | hbad
    · omega
    · exact hbad h0
    · exact hbad h1
    · exact hbad h8
    · exact hbad hdot
    all_goals omega
  · exact State.configure_eq_some.mpr
      ⟨(admissible_iff_conditions p).mpr ⟨hn, h0, h1, h8, hdot, hsetup, hhigh, hlatch⟩, rfl⟩
  · obtain ⟨-, h0, h1, h8, -⟩ := (admissible_iff_conditions s.params).mp h.config
    simp only [List.mem_cons, Prod.mk.injEq, List.not_mem_nil, or_false] at hmem
    rcases hmem with ⟨rfl, rfl⟩ | ⟨rfl, rfl⟩ | ⟨rfl, rfl⟩
    · simp [exec, execSegEncode, segValue, segPattern, State.deliver, h0]
    · simp [exec, execSegEncode, segValue, segPattern, State.deliver, h1]
    · simp [exec, execSegEncode, segValue, segPattern, State.deliver, h8]

end Sys2Proof.Machine
end

section
/-! PROOF of O9. The model's schedule (logs 3, 17, 18). -/

namespace Sys2Proof.Machine

theorem State.popHost_eq {s : State} {a : HostAct} {rest : List HostAct} (h : s.host = a :: rest) :
    s.popHost = { s with host := rest } := by
  simp [State.popHost, h]

theorem srResume_idle {s : State} (h : s.srPc = .idle) : srResume s = .next s := by
  simp [srResume, h]

/-- Settles O9, by what `agentStep` does at each item of the HOST's list. -/
theorem agentsMoveByTheSchedule : Obligations.AgentsMoveByTheSchedule := by
  have hempty (s : State) (hh : s.host = []) : step s = srResume s := by simp [step, agentStep, hh]
  refine ⟨fun s rest hh => ?_, fun s rest hh => ?_, fun s rest hh hpc => ?_, fun s rest hh hpc => ?_, hempty,
    fun s ⟨hh, hpc, _⟩ => ?_⟩
  · simp [step, agentStep, hh, State.popHost_eq hh]
  · by_cases hpc : s.srPc = .idle <;> simp [step, agentStep, hh, State.popHost_eq hh, hpc]
  · simp [step, agentStep, hh, hpc]
  · simp [step, agentStep, hh, hpc, State.popHost_eq hh]
  · rw [hempty s hh, srResume_idle hpc]

end Sys2Proof.Machine
end

section
/-! PROOF of O7. What a step does with the HOST's next act. -/

namespace Sys2Proof.Machine

/-- A step at which the HOST presents an operation that decodes is `exec` of it. -/
theorem step_call {s : State} {w : OpWord} {oob : Oob} {rest : List HostAct} {i : Instr}
    (hh : s.host = .call w oob :: rest) (hd : decode w oob = .ok i) : step s = exec i { s with host := rest } := by
  simp [step, agentStep, present, hh, hd, State.popHost_eq hh]

/-- Settles O7, by the first arm of the schedule. -/
theorem stepRunsThePresentedOperation : Obligations.StepRunsThePresentedOperation :=
  fun _ _ _ _ _ hh hd => step_call hh hd

end Sys2Proof.Machine
end

section
/-! PROOF of O37. A serialized caller's push form runs to its return, counted in delays (spec/41_shift_register.md R183,
R185). -/

namespace Sys2Proof

/-! ## The words of the push forms decode to them -/

/-- A word is its two bytes. -/
theorem opWord_bytes (w : OpWord) : opWord (w.extractLsb' 8 8) (w.extractLsb' 0 8) = w := by
  have happend := BitVec.extractLsb'_append_extractLsb'_eq_extractLsb' (x := w) (len₂ := 8) (show 8 = 0 + 8 from rfl)
  exact happend.trans BitVec.extractLsb'_eq_self

theorem opWord_eq_iff (hi lo : Byte) (w : OpWord) :
    opWord hi lo = w ↔ hi = w.extractLsb' 8 8 ∧ lo = w.extractLsb' 0 8 := by
  constructor
  · rintro rfl
    exact ⟨BitVec.extractLsb'_append_eq_left.symm, BitVec.extractLsb'_append_eq_right.symm⟩
  · rintro ⟨rfl, rfl⟩
    exact opWord_bytes w

/-- A row selects a word made of two bytes when it selects both bytes (30_encoding.md R106). -/
theorem Row.selects_opWord (r : Row) (hi lo : Byte) : r.selects (opWord hi lo) = true ↔
    hi &&& r.mask.extractLsb' 8 8 = r.value.extractLsb' 8 8 ∧
      lo &&& r.mask.extractLsb' 0 8 = r.value.extractLsb' 0 8 := by
  have hand : opWord hi lo &&& r.mask =
      opWord (hi &&& r.mask.extractLsb' 8 8) (lo &&& r.mask.extractLsb' 0 8) := by
    conv_lhs => rw [← opWord_bytes r.mask]
    exact BitVec.and_append
  rw [Row.selects, beq_iff_eq, hand, opWord_eq_iff]

/-- A push form's word and out-of-band operand decode to it (30_encoding.md R106, R107). -/
theorem decode_pushForm {i : Instr} {p : Machine.SrOp × List Byte} (h : Machine.pushForm i = some p) :
    decode i.word i.oob = .ok i := by
  cases i with
  | srPushByte v | srPushByteAndTransfer v | srSetOutputs v =>
    simp [Instr.word, Instr.oob, decode, selectRow, opcodeTable, Row.selects_opWord, Format.operands]
  | srPushBytes bytes | srPushBytesAndTransfer bytes =>
    simp [Instr.word, Instr.oob, decode, selectRow, opcodeTable, Row.selects, Format.operands]
  | srTransfer | srClearOutputs | srSetAllOutputs => rfl
  | segEncode | srInit | rtcInit | rtcGetDatetime | rtcSetDatetime | rtcGetTemperature | rtcIsBusy | bcdDec | bcdEnc =>
    simp [Machine.pushForm] at h

end Sys2Proof

namespace Sys2Proof.Machine

/-! ## Counting down to the return -/

/-- The delay of the latch pulse, where the operation has one (41_shift_register.md R174). -/
def SrOp.latchDelays (op : SrOp) : Nat := if op.latches then 1 else 0

theorem delaysOf_eq (op : SrOp) (bytes : List Byte) : delaysOf op bytes = 16 * bytes.length + op.latchDelays := rfl

/-- Where the call of a push form stands `k` delays before its return. `c` is the state the call began in, with its
operation and bytes: until the return only the wires have moved, and at the return unit is reported. Of the bytes, `n`
come after byte `j`; each has two delays a bit. -/
inductive State.ReturnsIn (c : State) (op : SrOp) : Nat → State → Prop
  | returned {w : State} (same : c.sameButWires w) : c.ReturnsIn op 0 w.srReturn
  | atLatch {s : State} (same : c.sameButWires s) (hpc : s.srPc = .sLatch) : c.ReturnsIn op 1 s
  | atSetup {s : State} {j n k : Nat} {i : Fin 8} (same : c.sameButWires s) (hpc : s.srPc = .sSetup j i)
      (hj : j + 1 + n = c.srBytes.length) (hk : k = 2 * (i.val + 1) + 16 * n + op.latchDelays) :
      c.ReturnsIn op k s
  | atHigh {s : State} {j n k : Nat} {i : Fin 8} (same : c.sameButWires s) (hpc : s.srPc = .sHigh j i)
      (hj : j + 1 + n = c.srBytes.length) (hk : k = 2 * i.val + 1 + 16 * n + op.latchDelays) :
      c.ReturnsIn op k s

section
variable {c s : State} {op : SrOp}

theorem State.ReturnsIn.afterPush (same : c.sameButWires s) :
    c.ReturnsIn op op.latchDelays (s.afterPush op) := by
  rcases s.afterPush_cases op with ⟨hlat, ha⟩ | ⟨hlat, ha⟩ <;> rw [ha, SrOp.latchDelays, hlat]
  · have hup : s.sameButWires s.latchUp := by simp [State.latchUp_eq, State.sameButWires]
    exact .atLatch (State.sameButWires_trans same hup) rfl
  · exact .returned same

theorem State.ReturnsIn.dataSetup (same : c.sameButWires s) {j n k : Nat} (i : Fin 8) (v : Byte)
    (hj : j + 1 + n = c.srBytes.length) (hk : k = 2 * (i.val + 1) + 16 * n + op.latchDelays) :
    c.ReturnsIn op k (s.dataSetup j i v) :=
  .atSetup (State.sameButWires_trans same (s.dataSetup_sameButWires j i v)) rfl hj hk

theorem State.ReturnsIn.byteEnd (same : c.sameButWires s) {j n : Nat} (hj : j + 1 + n = c.srBytes.length) :
    c.ReturnsIn op (16 * n + op.latchDelays) (s.byteEnd j op) := by
  have hrest := State.sameButWires_trans same s.dataRest_sameButWires
  obtain ⟨-, -, -, hbytes, -⟩ := same
  unfold State.byteEnd
  cases hv : s.srBytes[j + 1]? with
  | some v =>
    have hlt : j + 1 < c.srBytes.length := hbytes ▸ (List.getElem?_eq_some_iff.mp hv).1
    obtain ⟨m, rfl⟩ : ∃ m, n = m + 1 := ⟨n - 1, by omega⟩
    exact .dataSetup hrest (n := m) 7 v (by omega) (by omega)
  | none =>
    have hle : c.srBytes.length ≤ j + 1 := hbytes ▸ List.getElem?_eq_none_iff.mp hv
    obtain rfl : n = 0 := by omega
    simpa using State.ReturnsIn.afterPush hrest

theorem State.ReturnsIn.bitEnd (same : c.sameButWires s) {j n : Nat} (i : Fin 8) (v : Byte)
    (hj : j + 1 + n = c.srBytes.length) :
    c.ReturnsIn op (2 * i.val + 16 * n + op.latchDelays) (s.bitEnd j i v op) := by
  have hlow : c.sameButWires (s.driveLow .clk) := same
  unfold State.bitEnd
  split
  case isTrue hi =>
    have hpred : (i - 1).val = i.val - 1 := by simpa using Fin.sub_val_of_le (show (1 : Fin 8) ≤ i from hi)
    exact .dataSetup hlow (i - 1) v hj (by omega)
  case isFalse hi =>
    have hzero : i.val = 0 := by omega
    simpa [hzero] using State.ReturnsIn.byteEnd (op := op) hlow hj

/-- A push form starts as many delays before its return as `delaysOf` counts. -/
theorem State.ReturnsIn.pushStart (s : State) (op : SrOp) (bytes : List Byte) :
    (s.begin op bytes).ReturnsIn op (delaysOf op bytes) (s.pushStart op bytes) := by
  have same : (s.begin op bytes).sameButWires (s.begin op bytes) := by simp [State.sameButWires]
  cases bytes with
  | nil => simpa [delaysOf_eq, State.pushStart] using State.ReturnsIn.afterPush same
  | cons v vs =>
    have hlength : 0 + 1 + vs.length = (v :: vs).length := by simp [Nat.add_comm]
    exact .dataSetup same 7 v hlength (by simp only [delaysOf_eq, ← hlength]; omega)

/-- The end of a delay brings the return one delay nearer. -/
theorem State.ReturnsIn.srResume {k : Nat} (hop : c.srOp = some op) (h : c.ReturnsIn op (k + 1) s) :
    ∃ t, srResume s = .next t ∧ c.ReturnsIn op k t := by
  cases h with
  | atLatch same hpc =>
    have hlow : c.sameButWires (s.driveLow .latch) := same
    exact ⟨_, by simp [Machine.srResume, hpc], .returned hlow⟩
  | @atSetup _ j _ _ i same hpc hj hk =>
    have hhigh : c.sameButWires ((s.driveHigh .clk).suspend .high (.sHigh j i)) :=
      State.sameButWires_trans same (by simp [State.sameButWires])
    exact ⟨_, by simp [Machine.srResume, hpc], .atHigh hhigh rfl hj (by omega)⟩
  | @atHigh _ j n _ i same hpc hj hk =>
    obtain ⟨-, -, hop', hbytes, -⟩ := id same
    obtain ⟨v, hv⟩ : ∃ v, s.srBytes[j]? = some v := ⟨_, List.getElem?_eq_getElem (by rw [hbytes]; omega)⟩
    obtain rfl : k = 2 * i.val + 16 * n + op.latchDelays := by omega
    exact ⟨s.bitEnd j i v op, by simp [Machine.srResume, hpc, hv, hop', hop], State.ReturnsIn.bitEnd same i v hj⟩

/-- Before its return the SR unit is not idle, so a HOST that waits keeps waiting. -/
theorem State.ReturnsIn.busy {k : Nat} (h : c.ReturnsIn op (k + 1) s) : s.srPc ≠ .idle := by
  cases h with
  | atLatch _ hpc | atSetup _ hpc | atHigh _ hpc => simp [hpc]

theorem State.ReturnsIn.host_eq {k : Nat} (h : c.ReturnsIn op k s) : s.host = c.host := by
  cases h with
  | returned same | atLatch same | atSetup same | atHigh same =>
    obtain ⟨-, -, -, -, -, -, -, hhost, -⟩ := same
    exact hhost

end

/-! ## A caller that waits -/

theorem core_run_succ {s t : State} (n : Nat) (h : step s = .next t) :
    Host.Core.run core (n + 1) s = Host.Core.run core n t := by
  simp [Host.Core.run, core, h]

/-- A HOST that waits sees the return: one step a delay, and one in which it finds the unit idle. -/
theorem State.ReturnsIn.run_await {c s : State} {op : SrOp} {rest : List HostAct} {k : Nat} (hop : c.srOp = some op)
    (hhost : c.host = .await :: rest) (h : c.ReturnsIn op k s) :
    ∃ u : State, Host.Core.run core (k + 1) s = .next u ∧ u.host = rest ∧ u.srPc = .idle ∧
      u.outcomes = c.outcomes ++ [.ok .unit] ∧ u.faults = c.faults ∧ u.refused = c.refused := by
  obtain ⟨-, -, hbusy, hidle, -⟩ := agentsMoveByTheSchedule
  induction k generalizing s with
  | zero =>
    cases h with
    | @returned w same =>
      obtain ⟨-, -, -, -, hfaults, hrefused, houtcomes, hhost', -⟩ := same
      refine ⟨{ w.srReturn with host := rest }, ?_, rfl, rfl, ?_⟩
      · exact core_run_succ 0 (hidle _ rest (hhost'.trans hhost) rfl)
      · simp [houtcomes, hfaults, hrefused]
    | atSetup _ _ _ hk | atHigh _ _ _ hk => omega
  | succ k ih =>
    have hs : s.host = .await :: rest := h.host_eq.trans hhost
    obtain ⟨t, ht, hnext⟩ := h.srResume hop
    rw [core_run_succ (k + 1) ((hbusy s rest hs h.busy).trans ht)]
    exact ih hnext

/-- Settles O37: the call starts the push, and the wait runs it down to its return. -/
theorem serializedCallCompletes : Obligations.SerializedCallCompletes := by
  intro i op bytes s rest hform husable hhost
  have hcall : step s = .next (State.pushStart { s with host := .await :: rest } op bytes) :=
    (step_call hhost (decode_pushForm hform)).trans (exec_pushForm_usable hform husable)
  rw [core_run_succ _ hcall]
  have hstart := State.ReturnsIn.pushStart { s with host := .await :: rest } op bytes
  -- keeping the operation and its bytes leaves the list, the reports and the marks as they are
  have hrun := hstart.run_await (rest := rest) rfl rfl
  exact hrun

end Sys2Proof.Machine
end

section
/-! PROOF of O16. The chain's reaction to each write of a line (10_state.md R52). -/

namespace Sys2Proof.Machine

/-- Settles O16: a rise from 0 is an edge, and neither a fall nor a write of DATA is one. -/
theorem chainReactsToRisingEdges : Obligations.ChainReactsToRisingEdges := by
  refine ⟨fun s hclk => ?_, fun s hlatch => ?_, fun s l => rfl, fun s v => ?_⟩
  · simp [State.drive, State.driveHigh_eq, shiftedIn, hclk]
  · simp [State.drive, State.driveHigh_eq, hlatch]
  · simp [State.drive_data_eq]

end Sys2Proof.Machine
end

section
/-! PROOF of O53. What no step takes back: marks, history, reports and parameters (10_state.md R40, R42, R44). -/

namespace Sys2Proof.Machine

/-! ## The relation, and the updates that respect it -/

/-- Every mark set in `s` is set in `t`, what is recorded and reported in `s` begins what is in `t`, and the parameters
are the same. -/
def State.onlyGrows (s t : State) : Prop :=
  (s.faults.srNotInitialised = true → t.faults.srNotInitialised = true) ∧
  (s.faults.concurrentCall = true → t.faults.concurrentCall = true) ∧
  (s.refused = true → t.refused = true) ∧
  s.hist <+: t.hist ∧ s.outcomes <+: t.outcomes ∧ t.params = s.params

theorem State.onlyGrows.trans {s t u : State} (h : s.onlyGrows t) (h' : t.onlyGrows u) : s.onlyGrows u := by
  obtain ⟨hinit, hconc, hrefused, hhist, hout, hparams⟩ := h
  obtain ⟨hinit', hconc', hrefused', hhist', hout', hparams'⟩ := h'
  exact ⟨hinit' ∘ hinit, hconc' ∘ hconc, hrefused' ∘ hrefused, hhist.trans hhist', hout.trans hout',
    hparams'.trans hparams⟩

section
variable (s : State)

theorem State.onlyGrows_dataSetup (j : Nat) (i : Fin 8) (v : Byte) : s.onlyGrows (s.dataSetup j i v) := by
  simp [State.dataSetup_eq, State.onlyGrows]

theorem State.onlyGrows_dataRest : s.onlyGrows s.dataRest := by
  rcases s.dataRest_cases with h | h <;> simp [h, State.onlyGrows]

theorem State.onlyGrows_afterPush (op : SrOp) : s.onlyGrows (s.afterPush op) := by
  rcases s.afterPush_cases op with ⟨-, h⟩ | ⟨-, h⟩ <;> rw [h]
  · simp [State.latchUp_eq, State.onlyGrows]
  · simp [State.onlyGrows]

theorem State.onlyGrows_pushStart (op : SrOp) (bytes : List Byte) : s.onlyGrows (s.pushStart op bytes) := by
  have hbegin : s.onlyGrows (s.begin op bytes) := by simp [State.onlyGrows]
  cases bytes with
  | nil => exact hbegin.trans (State.onlyGrows_afterPush _ op)
  | cons v vs => exact hbegin.trans (State.onlyGrows_dataSetup _ 0 7 v)

theorem State.onlyGrows_byteEnd (j : Nat) (op : SrOp) : s.onlyGrows (s.byteEnd j op) := by
  unfold State.byteEnd
  split
  · exact s.onlyGrows_dataRest.trans (State.onlyGrows_dataSetup _ _ _ _)
  · exact s.onlyGrows_dataRest.trans (State.onlyGrows_afterPush _ op)

theorem State.onlyGrows_bitEnd (j : Nat) (i : Fin 8) (v : Byte) (op : SrOp) : s.onlyGrows (s.bitEnd j i v op) := by
  have hlow : s.onlyGrows (s.driveLow .clk) := by simp [State.onlyGrows]
  unfold State.bitEnd
  split
  · exact hlow.trans (State.onlyGrows_dataSetup _ _ _ _)
  · exact hlow.trans (State.onlyGrows_byteEnd _ j op)

theorem State.onlyGrows_popHost : s.onlyGrows s.popHost := by simp [State.onlyGrows]

theorem State.onlyGrows_deliver (o : OpOutcome) : s.onlyGrows (s.deliver o) := by simp [State.onlyGrows]

theorem State.onlyGrows_refuse (o : OpOutcome) : s.onlyGrows (s.refuse o) := by simp [State.onlyGrows]

theorem State.onlyGrows_memRead_deliver (reg : Byte) (n : Nat) (o : OpOutcome) :
    s.onlyGrows ((s.memRead reg n).deliver o) := by simp [State.onlyGrows]

theorem State.onlyGrows_memWrite_deliver (reg : Byte) (bytes : List Byte) (o : OpOutcome) :
    s.onlyGrows ((s.memWrite reg bytes).deliver o) := by simp [State.onlyGrows]

theorem State.onlyGrows_cancelSr : s.onlyGrows s.cancelSr := by
  by_cases hpc : s.srPc = .idle
  · simp [s.cancelSr_idle hpc, State.onlyGrows]
  · simp [s.cancelSr_eq hpc, State.onlyGrows]

end

/-! ## Every move of an agent -/

section
variable {s t : State}

theorem srResume_onlyGrows (h : srResume s = .next t) : s.onlyGrows t := by
  rcases srResume_cases s h with ⟨-, ht⟩ | ⟨-, ht⟩ | ⟨j, i, -, ht⟩ | ⟨j, i, v, op, -, -, -, ht⟩ |
    ⟨j, i, -, -, ht⟩ | ⟨-, ht⟩ <;> cases ht
  · simp [State.onlyGrows]
  · simp [State.onlyGrows]
  · simp [State.onlyGrows]
  · exact s.onlyGrows_bitEnd j i v op
  · simp [State.onlyGrows]

theorem srStart_onlyGrows {i : Instr} {op : SrOp} {bytes : List Byte} (h : srStart i op bytes s = .next t) :
    s.onlyGrows t := by
  rcases srStart_cases s h with ⟨-, ht⟩ | ⟨-, -, ht⟩ | ⟨-, -, -, ht⟩ | ⟨-, -, -, ht⟩ <;> cases ht
  · simp [State.onlyGrows]
  · simp [State.initStart_eq, State.onlyGrows]
  · simp [State.onlyGrows]
  · exact s.onlyGrows_pushStart op bytes

theorem exec_onlyGrows {i : Instr} (h : exec i s = .next t) : s.onlyGrows t := by
  cases hi : isSr i with
  | true =>
    obtain ⟨op, bytes, he⟩ := exec_isSr hi s
    exact srStart_onlyGrows (he ▸ h)
  | false =>
    cases i with
    | segEncode | bcdDec => cases h; exact s.onlyGrows_deliver _
    | rtcInit | rtcGetDatetime | rtcGetTemperature | rtcIsBusy =>
      cases h; exact s.onlyGrows_memRead_deliver _ _ _
    | rtcSetDatetime =>
      cases h
      split
      · exact s.onlyGrows_memWrite_deliver _ _ _
      · exact s.onlyGrows_refuse _
    | bcdEnc =>
      cases h
      split
      · exact s.onlyGrows_deliver _
      · exact s.onlyGrows_refuse _
    | srInit | srPushByte | srPushBytes | srTransfer | srPushByteAndTransfer | srPushBytesAndTransfer | srSetOutputs
    | srClearOutputs | srSetAllOutputs => simp [isSr, pushForm] at hi

end

/-- Settles O53: nothing that an agent's move does takes anything back. -/
theorem marksAndHistoryOnlyGrow : Obligations.MarksAndHistoryOnlyGrow := by
  intro s t hst
  show s.onlyGrows t
  have hpop := s.onlyGrows_popHost
  rcases step_cases hst with ⟨w, oob, rest, i, -, -, ht⟩ | ⟨w, oob, rest, why, -, -, ht⟩ | ⟨rest, -, ht⟩ |
    ⟨rest, -, ht⟩ | ⟨rest, -, -, ht⟩ | ⟨rest, -, -, ht⟩ | ⟨-, ht⟩
  · exact hpop.trans (exec_onlyGrows ht.symm)
  · cases ht
    exact hpop.trans (State.onlyGrows_refuse _ _)
  · cases ht
    exact hpop.trans (State.onlyGrows_cancelSr _)
  · exact hpop.trans (srResume_onlyGrows ht.symm)
  · cases ht
    exact hpop
  · exact srResume_onlyGrows ht.symm
  · exact srResume_onlyGrows ht.symm

end Sys2Proof.Machine
end

section
/-! PROOF of O48 and O49. The power-up state (10_state.md R56). -/

namespace Sys2Proof.Machine

/-- Settles O48, by the fields of the power-up state and the one delay of SR.INIT. -/
theorem powerUpState : Obligations.PowerUpState := by
  refine ⟨fun p => ?_, rfl, rfl⟩
  have hinit : exec .srInit (State.powerUp p) = .next (State.powerUp p).initStart := rfl
  have hend : srResumeTimes 1 (State.powerUp p).initStart =
      .next ((State.powerUp p).initStart.setReady true).srReturn := rfl
  refine ⟨rfl, rfl, rfl, rfl, List.length_replicate, fun _ => List.eq_of_mem_replicate, List.length_replicate,
    fun _ => List.eq_of_mem_replicate, rfl, rfl, rfl, _, _, hinit, hend, ?_⟩
  simp [State.initStart_eq]

/-- A block of an admissible configuration powers up in the invariant: its lines are X, but it is neither ready nor
running. -/
theorem State.powerUp_inv {p : Params} (h : p.admissible = true) : (State.powerUp p).Inv where
  config := h
  shift_length := List.length_replicate
  store_length := List.length_replicate
  lines_known := fun hlive => by simp [State.powerUp] at hlive
  position := ⟨rfl, rfl⟩

/-- Settles O49: the default configuration is admissible, and reset is its power-up. -/
theorem invariantAtReset : Obligations.InvariantAtReset :=
  ⟨State.powerUp_inv (by decide), fun _ => State.powerUp_inv⟩

end Sys2Proof.Machine
end

section
/-! PROOF of O27. Where the bits of a push end up, bit by bit and chip by chip (spec/20_memory.md R83, R84;
10_state.md R52). -/

namespace Sys2Proof.Machine

/-! ## The bits of one chip -/

theorem serialBits_append (xs ys : List Byte) : serialBits (xs ++ ys) = serialBits xs ++ serialBits ys :=
  List.flatMap_append

theorem serialBits_cons (v : Byte) (vs : List Byte) : serialBits (v :: vs) = bitsMsbFirst v ++ serialBits vs := rfl

@[simp] theorem byteLevels_length (v : Byte) : (byteLevels v).length = 8 := rfl

/-- The `k` bytes pushed after `v` fill the `k` chips before its own (20_memory.md R84). -/
theorem chipBits_shiftedBits_append {n k : Nat} {before after : List Byte} {v : Byte} (hafter : after.length = k)
    (hk : k < n) (shift : List Level) :
    chipBits (shiftedBits n (serialBits (before ++ v :: after)) shift) k = byteLevels v := by
  have hbits : ((serialBits after).reverse.map Level.ofBool).length = 8 * k := by
    simp [serialBits_length, hafter]
  have hsplit : (serialBits (before ++ v :: after)).reverse.map Level.ofBool =
      (serialBits after).reverse.map Level.ofBool ++
        (byteLevels v ++ (serialBits before).reverse.map Level.ofBool) := by
    simp [serialBits_append, serialBits_cons, byteLevels]
  simp only [chipBits, shiftedBits, hsplit, List.append_assoc]
  rw [List.drop_take, List.take_take, List.drop_left' hbits, Nat.min_eq_left (by omega)]
  exact List.take_left' (byteLevels_length v)

/-- Of as many bytes as there are chips, byte `n - 1 - k` is the one with `k` after it, so chip `k` has it
(20_memory.md R84). -/
theorem chipBits_shiftedBits {n k : Nat} {bytes : List Byte} {v : Byte} (hn : bytes.length = n) (hk : k < n)
    (hv : bytes[n - 1 - k]? = some v) (shift : List Level) :
    chipBits (shiftedBits n (serialBits bytes) shift) k = byteLevels v := by
  obtain ⟨hlt, rfl⟩ := List.getElem?_eq_some_iff.mp hv
  have hafter : (bytes.drop (n - 1 - k + 1)).length = k := by
    rw [List.length_drop]
    omega
  have hchip := chipBits_shiftedBits_append (before := bytes.take (n - 1 - k)) (v := bytes[n - 1 - k]) hafter hk shift
  rwa [List.getElem_cons_drop, List.take_append_drop] at hchip

/-! ## One clock pulse at a time -/

/-- The push that began in `c`, LATCH low, has clocked `bits` into the chain and nothing else has moved but the
wires. -/
structure State.Clocked (c : State) (bits : List Bool) (s : State) : Prop where
  same : c.sameButWires s
  latch : s.lines.latch = .zero
  shift : s.shift = shiftedBits c.params.nChips bits c.shift
  store : s.store = c.store

section
variable {c s : State} {bits : List Bool} (h : c.Clocked bits s)
include h

theorem State.Clocked.dataSetup (j : Nat) (i : Fin 8) (v : Byte) : c.Clocked bits (s.dataSetup j i v) where
  same := State.sameButWires_trans h.same (s.dataSetup_sameButWires j i v)
  latch := by simp [State.dataSetup_eq, h.latch]
  shift := by simp [State.dataSetup_eq, h.shift]
  store := by simp [State.dataSetup_eq, h.store]

theorem State.Clocked.clockDown : c.Clocked bits (s.driveLow .clk) := { h with }

theorem State.Clocked.dataRest : c.Clocked bits s.dataRest where
  same := State.sameButWires_trans h.same s.dataRest_sameButWires
  latch := by rcases s.dataRest_cases with hr | hr <;> simp [hr, h.latch]
  shift := by rcases s.dataRest_cases with hr | hr <;> simp [hr, h.shift]
  store := by rcases s.dataRest_cases with hr | hr <;> simp [hr, h.store]

/-- A rise of CLK from 0 clocks in the bit that DATA carries. -/
theorem State.Clocked.clockUp {b : Bool} (hclk : s.lines.clk = .zero) (hdata : s.lines.data = Level.ofBool b)
    (j : Nat) (i : Fin 8) : c.Clocked (bits ++ [b]) ((s.driveHigh .clk).suspend .high (.sHigh j i)) := by
  obtain ⟨hparams, -⟩ := h.same
  rw [State.clockUp_eq]
  refine { h with same := State.sameButWires_trans h.same (by simp [State.sameButWires]), shift := ?_ }
  simp [hclk, hdata, h.shift, hparams, shiftedIn_shiftedBits]

end

theorem State.dataRest_clk (s : State) : s.dataRest.lines.clk = s.lines.clk := by
  rcases s.dataRest_cases with h | h <;> rw [h]

/-! ## Where the chain stands at each position of a push -/

/-- What the push of operation `op` that began in `c` makes of the chain: all bits shifted in, and for the transfer
forms latched (41_shift_register.md R186). -/
structure State.ChainPushed (c : State) (op : SrOp) (s : State) : Prop where
  shift : s.shift = shiftedBits c.params.nChips (serialBits c.srBytes) c.shift
  store : s.store = if op.latches then s.shift else c.store

/-- Where the push of `op` that began in `c`, from rest, stands at each position: at bit `i` of byte `j` the chain has
clocked in what was sent before that bit, and at its S_HIGH also the bit itself. -/
inductive State.Pushing (c : State) (op : SrOp) : State → Prop
  | atSetup {s : State} {j : Nat} {i : Fin 8} {v : Byte} (hpc : s.srPc = .sSetup j i) (hv : c.srBytes[j]? = some v)
      (clocked : c.Clocked ((serialBits c.srBytes).take (8 * j + (7 - i))) s) (hclk : s.lines.clk = .zero)
      (hdata : s.lines.data = Level.ofBool (v.getLsbD i)) : c.Pushing op s
  | atHigh {s : State} {j : Nat} {i : Fin 8} {v : Byte} (hpc : s.srPc = .sHigh j i) (hv : c.srBytes[j]? = some v)
      (clocked : c.Clocked ((serialBits c.srBytes).take (8 * j + (7 - i) + 1)) s) : c.Pushing op s
  | atLatch {s : State} (hpc : s.srPc = .sLatch) (hclk : s.lines.clk = .zero) (pushed : c.ChainPushed op s) :
      c.Pushing op s
  | returned {s : State} (hpc : s.srPc = .idle) (rest : s.atRest) (pushed : c.ChainPushed op s) : c.Pushing op s

section
variable {c s : State} {op : SrOp}

theorem State.Pushing.dataSetup {j : Nat} {v : Byte} (i : Fin 8) (hv : c.srBytes[j]? = some v)
    (clocked : c.Clocked ((serialBits c.srBytes).take (8 * j + (7 - i))) s) (hclk : s.lines.clk = .zero) :
    c.Pushing op (s.dataSetup j i v) := by
  refine .atSetup ?_ hv (clocked.dataSetup j i v) ?_ ?_
  all_goals simp [State.dataSetup_eq, hclk]

/-- With all bits clocked in, the latch pulse copies them, or the operation returns. -/
theorem State.Pushing.afterPush (clocked : c.Clocked (serialBits c.srBytes) s) (hclk : s.lines.clk = .zero) :
    c.Pushing op (s.afterPush op) := by
  rcases s.afterPush_cases op with ⟨hlat, ha⟩ | ⟨hlat, ha⟩ <;> rw [ha]
  · rw [State.latchUp_eq]
    refine .atLatch rfl hclk ⟨clocked.shift, ?_⟩
    simp [hlat, clocked.latch]
  · refine .returned rfl ⟨hclk, clocked.latch⟩ ⟨clocked.shift, ?_⟩
    simp [hlat, clocked.store]

theorem State.Pushing.byteEnd {j : Nat} (hj : j < c.srBytes.length)
    (clocked : c.Clocked ((serialBits c.srBytes).take (8 * (j + 1))) s) (hclk : s.lines.clk = .zero) :
    c.Pushing op (s.byteEnd j op) := by
  obtain ⟨-, -, -, hbytes, -⟩ := clocked.same
  have hrest : s.dataRest.lines.clk = .zero := s.dataRest_clk.trans hclk
  unfold State.byteEnd
  cases hv : s.srBytes[j + 1]? with
  | some v => exact .dataSetup 7 (hbytes ▸ hv) clocked.dataRest hrest
  | none =>
    have hle : c.srBytes.length ≤ j + 1 := hbytes ▸ List.getElem?_eq_none_iff.mp hv
    rw [List.take_of_length_le (by rw [serialBits_length]; omega)] at clocked
    exact .afterPush clocked.dataRest hrest

theorem State.Pushing.bitEnd {j : Nat} {v : Byte} (i : Fin 8) (hv : c.srBytes[j]? = some v)
    (clocked : c.Clocked ((serialBits c.srBytes).take (8 * j + (7 - i) + 1)) s) : c.Pushing op (s.bitEnd j i v op) := by
  unfold State.bitEnd
  split
  case isTrue hi =>
    have hpred : (i - 1).val = i.val - 1 := by simpa using Fin.sub_val_of_le (show (1 : Fin 8) ≤ i from hi)
    refine .dataSetup (i - 1) hv ?_ rfl
    rw [show 8 * j + (7 - (i - 1).val) = 8 * j + (7 - i.val) + 1 by omega]
    exact clocked.clockDown
  case isFalse hi =>
    refine .byteEnd (List.getElem?_eq_some_iff.mp hv).1 ?_ rfl
    rw [show 8 * (j + 1) = 8 * j + (7 - i.val) + 1 by omega]
    exact clocked.clockDown

/-- A push form presented at rest begins with nothing clocked in. -/
theorem State.Pushing.pushStart (hrest : s.atRest) (hlength : s.shift.length = 8 * s.params.nChips) (op : SrOp)
    (bytes : List Byte) : (s.begin op bytes).Pushing op (s.pushStart op bytes) := by
  obtain ⟨hclk, hlatch⟩ := hrest
  have clocked : (s.begin op bytes).Clocked [] (s.begin op bytes) :=
    ⟨by simp [State.sameButWires], hlatch, by simp [shiftedBits, ← hlength], rfl⟩
  cases bytes with
  | nil => exact .afterPush clocked hclk
  | cons v vs => exact .dataSetup 7 rfl clocked hclk

/-- The end of a delay takes the push to its next position. -/
theorem State.Pushing.srResume {t : State} (hop : c.srOp = some op) (h : c.Pushing op s)
    (hst : srResume s = .next t) : c.Pushing op t := by
  cases h with
  | @atSetup j i v hpc hv clocked hclk hdata =>
    obtain rfl : (s.driveHigh .clk).suspend .high (.sHigh j i) = t := by simpa [Machine.srResume, hpc] using hst
    refine .atHigh rfl hv ?_
    have hbit : (serialBits c.srBytes)[8 * j + (7 - i.val)]? = some (v.getLsbD i) := serialBits_getElem? hv i.isLt
    rw [List.take_add_one, hbit]
    exact clocked.clockUp hclk hdata j i
  | @atHigh j i v hpc hv clocked =>
    obtain ⟨-, -, hop', hbytes, -⟩ := clocked.same
    obtain rfl : s.bitEnd j i v op = t := by simpa [Machine.srResume, hpc, hop', hop, hbytes, hv] using hst
    exact .bitEnd i hv clocked
  | atLatch hpc hclk pushed =>
    obtain rfl : (s.driveLow .latch).srReturn = t := by simpa [Machine.srResume, hpc] using hst
    exact .returned rfl ⟨hclk, rfl⟩ ⟨pushed.shift, pushed.store⟩
  | returned hpc rest pushed =>
    obtain rfl : s = t := by simpa [Machine.srResume, hpc] using hst
    exact .returned hpc rest pushed

/-- The delays left before its return end a push with the whole chain moved. -/
theorem State.Pushing.srResumeTimes {k : Nat} (hop : c.srOp = some op) (hk : c.ReturnsIn op k s)
    (h : c.Pushing op s) : ∃ u : State, srResumeTimes k s = .next u ∧ u.atRest ∧ c.ChainPushed op u := by
  induction k generalizing s with
  | zero =>
    cases hk with
    | returned =>
      cases h with
      | returned _ rest pushed => exact ⟨_, rfl, rest, pushed⟩
      | atSetup hpc | atHigh hpc | atLatch hpc => cases hpc
    | atSetup _ _ _ hk | atHigh _ _ _ hk => omega
  | succ k ih =>
    obtain ⟨t, ht, hnext⟩ := hk.srResume hop
    rw [srResumeTimes_succ k ht]
    exact ih hnext (h.srResume hop ht)

end

/-- A push form presented at rest ends at rest, with the bits pushed in the shift stage, the last at SHIFT[0], and for
the transfer forms in the storage register (41_shift_register.md R186). -/
theorem exec_pushForm_moves_chain {i : Instr} {op : SrOp} {bytes : List Byte} {s : State}
    (hform : pushForm i = some (op, bytes)) (husable : s.srUsable) (hrest : s.atRest)
    (hlength : s.shift.length = 8 * s.params.nChips) :
    ∃ t u : State, exec i s = .next t ∧ srResumeTimes (delaysOf op bytes) t = .next u ∧ u.atRest ∧
      u.shift = shiftedBits s.params.nChips (serialBits bytes) s.shift ∧
      u.store = if op.latches then u.shift else s.store := by
  obtain ⟨u, hrun, hend, hshift, hstore⟩ := State.Pushing.srResumeTimes rfl (State.ReturnsIn.pushStart s op bytes)
    (State.Pushing.pushStart hrest hlength op bytes)
  exact ⟨_, u, exec_pushForm_usable hform husable, hrun, hend, hshift, hstore⟩

/-- Settles O27, by where the push leaves the chain's bits and which chip those of each byte are. -/
theorem cascadeByteOrder : Obligations.CascadeByteOrder := by
  intro i op bytes s hform husable hrest hlength hfull
  obtain ⟨t, u, hexec, hrun, -, hshift, hstore⟩ := exec_pushForm_moves_chain hform husable hrest hlength
  refine ⟨t, u, hexec, hrun, fun k v hk hv => ?_⟩
  have hchip : chipBits u.shift k = byteLevels v := hshift ▸ chipBits_shiftedBits hfull hk hv s.shift
  refine ⟨hchip, fun hlat => ?_⟩
  rw [hstore, if_pos hlat, hchip]

end Sys2Proof.Machine
end

section
/-! PROOF of O38. What the BUS oracle answers, and what an RTC operation uses up of it (spec/20_memory.md R81). -/

namespace Sys2Proof.Machine

/-- An RTC operation that is not refused makes one transaction, which uses up one answer and one draw. -/
theorem exec_isRtc_takes_answer {i : Instr} {s t : State} (hi : isRtc i = true) (hwf : i.wellFormed = true)
    (h : exec i s = .next t) : t.bus = s.bus.tail ∧ t.draws = s.draws + 1 := by
  cases i with
  | rtcInit | rtcGetDatetime | rtcGetTemperature | rtcIsBusy => cases h; exact ⟨rfl, rfl⟩
  | rtcSetDatetime d =>
    have hrange : dateTimeInRange d = true := hwf
    cases h
    rw [if_pos hrange]
    exact ⟨rfl, rfl⟩
  | segEncode | srInit | srPushByte | srPushBytes | srTransfer | srPushByteAndTransfer | srPushBytesAndTransfer
  | srSetOutputs | srClearOutputs | srSetAllOutputs | bcdDec | bcdEnc => simp [isRtc] at hi

/-- Settles O38, by the laws of the oracle's answers and what each RTC operation takes. -/
theorem oracleAnswersFitTheTransaction : Obligations.OracleAnswersFitTheTransaction :=
  ⟨fun s _ _ h => s.readReply_length h, fun s _ _ h => ⟨s.readReply_ok h rfl, s.writeReply_ok h⟩,
    fun s _ _ _ h => ⟨s.readReply_err h, s.writeReply_err h⟩, fun _ _ _ => exec_isRtc_takes_answer⟩

end Sys2Proof.Machine
end

section
/-! PROOF of O47. Which events each move records, and so which RTC registers are ever reached (spec/20_memory.md R75,
R76). -/

namespace Sys2Proof.Machine

/-! ## Recording only events of one kind -/

/-- From `s` to `t` events are recorded after what was there, and all of them satisfy `P`. -/
def State.recordsOnly (P : Event → Prop) (s t : State) : Prop :=
  ∃ evs : List Event, t.hist = s.hist ++ evs ∧ ∀ e ∈ evs, P e

section
variable {P Q : Event → Prop} {s t u : State}

theorem State.recordsOnly_of_hist_eq (h : t.hist = s.hist) : s.recordsOnly P t := ⟨[], by simp [h]⟩

theorem State.recordsOnly_of_hist_append {e : Event} (h : t.hist = s.hist ++ [e]) (he : P e) : s.recordsOnly P t :=
  ⟨[e], h, by simpa using he⟩

theorem State.recordsOnly.trans (h : s.recordsOnly P t) (h' : t.recordsOnly P u) : s.recordsOnly P u := by
  obtain ⟨evs, hhist, hall⟩ := h
  obtain ⟨evs', hhist', hall'⟩ := h'
  refine ⟨evs ++ evs', by rw [hhist', hhist, List.append_assoc], fun e he => ?_⟩
  exact (List.mem_append.mp he).elim (hall e) (hall' e)

theorem State.recordsOnly.mono (h : s.recordsOnly P t) (hPQ : ∀ e, P e → Q e) : s.recordsOnly Q t := by
  obtain ⟨evs, hhist, hall⟩ := h
  exact ⟨evs, hhist, fun e he => hPQ e (hall e he)⟩

end

/-! ## The SR unit records line writes and delays -/

/-- From `s` to `t` only line writes and delays are recorded. -/
def State.recordsSr (s t : State) : Prop := s.recordsOnly (isSrEvent · = true) t

section
variable (s : State)

theorem State.dataSetup_recordsSr (j : Nat) (i : Fin 8) (v : Byte) : s.recordsSr (s.dataSetup j i v) :=
  ⟨[.lineSet .data (v.getLsbD i), .delay .setup s.params.tSetup], by simp [State.dataSetup_eq], by simp [isSrEvent]⟩

theorem State.dataRest_recordsSr : s.recordsSr s.dataRest := by
  rcases s.dataRest_cases with h | h <;> rw [h]
  · exact State.recordsOnly_of_hist_eq rfl
  · exact State.recordsOnly_of_hist_append rfl rfl

theorem State.driveLow_recordsSr (l : Line) : s.recordsSr (s.driveLow l) :=
  State.recordsOnly_of_hist_append rfl rfl

theorem State.clockUp_recordsSr (j : Nat) (i : Fin 8) :
    s.recordsSr ((s.driveHigh .clk).suspend .high (.sHigh j i)) :=
  ⟨[.lineSet .clk true, .delay .high s.params.tHigh], by rw [State.clockUp_eq], by simp [isSrEvent]⟩

theorem State.latchUp_recordsSr : s.recordsSr s.latchUp :=
  ⟨[.lineSet .latch true, .delay .latch s.params.tLatch], by rw [State.latchUp_eq], by simp [isSrEvent]⟩

theorem State.initStart_recordsSr : s.recordsSr s.initStart :=
  ⟨[.lineSet .clk false, .lineSet .latch false, .lineSet .data false, .delay .init s.params.tInit],
    by rw [State.initStart_eq], by simp [isSrEvent]⟩

theorem State.srReturn_recordsSr : s.recordsSr s.srReturn := State.recordsOnly_of_hist_eq rfl

theorem State.afterPush_recordsSr (op : SrOp) : s.recordsSr (s.afterPush op) := by
  rcases s.afterPush_cases op with ⟨-, h⟩ | ⟨-, h⟩ <;> rw [h]
  · exact s.latchUp_recordsSr
  · exact s.srReturn_recordsSr

theorem State.byteEnd_recordsSr (j : Nat) (op : SrOp) : s.recordsSr (s.byteEnd j op) := by
  unfold State.byteEnd
  split
  · exact s.dataRest_recordsSr.trans (State.dataSetup_recordsSr _ _ _ _)
  · exact s.dataRest_recordsSr.trans (State.afterPush_recordsSr _ op)

theorem State.bitEnd_recordsSr (j : Nat) (i : Fin 8) (v : Byte) (op : SrOp) : s.recordsSr (s.bitEnd j i v op) := by
  unfold State.bitEnd
  split
  · exact (s.driveLow_recordsSr .clk).trans (State.dataSetup_recordsSr _ _ _ _)
  · exact (s.driveLow_recordsSr .clk).trans (State.byteEnd_recordsSr _ j op)

theorem State.pushStart_recordsSr (op : SrOp) (bytes : List Byte) : s.recordsSr (s.pushStart op bytes) := by
  have hbegin : s.recordsSr (s.begin op bytes) := State.recordsOnly_of_hist_eq rfl
  cases bytes with
  | nil => exact hbegin.trans (State.afterPush_recordsSr _ op)
  | cons v vs => exact hbegin.trans (State.dataSetup_recordsSr _ 0 7 v)

end

theorem srResume_recordsSr {s t : State} (h : srResume s = .next t) : s.recordsSr t := by
  rcases srResume_cases s h with ⟨-, ht⟩ | ⟨-, ht⟩ | ⟨j, i, -, ht⟩ | ⟨j, i, v, op, -, -, -, ht⟩ |
    ⟨j, i, -, -, ht⟩ | ⟨-, ht⟩ <;> cases ht
  · exact State.recordsOnly_of_hist_eq rfl
  · exact State.recordsOnly_of_hist_eq rfl
  · exact s.clockUp_recordsSr j i
  · exact s.bitEnd_recordsSr j i v op
  · exact (s.driveLow_recordsSr .latch).trans (State.srReturn_recordsSr _)

theorem srStart_recordsSr {i : Instr} {op : SrOp} {bytes : List Byte} {s t : State}
    (h : srStart i op bytes s = .next t) : s.recordsSr t := by
  rcases srStart_cases s h with ⟨-, ht⟩ | ⟨-, -, ht⟩ | ⟨-, -, -, ht⟩ | ⟨-, -, -, ht⟩ <;> cases ht
  · exact State.recordsOnly_of_hist_eq rfl
  · exact s.initStart_recordsSr
  · exact State.recordsOnly_of_hist_eq rfl
  · exact s.pushStart_recordsSr op bytes

/-! ## The transactions the spec lists -/

/-- How many registers a write of the time block reaches, from 0x00 on (20_memory.md R76). -/
def writtenLength : RtcLayout → Nat
  | .doc6 => 6
  | .ds3231 => 7

/-- A transaction of 20_memory.md R76: a read of the time block, of the status or of the temperature, or a write of the
time block as the layout has it. -/
def listedTransaction (p : Params) (e : Event) : Prop :=
  (∃ (reg : Byte) (n : Nat) (r : ReadReply), e = .busWR 0x68#7 [reg] n r ∧
    ((reg = 0x00#8 ∧ n = 7) ∨ (reg = 0x0F#8 ∧ n = 1) ∨ (reg = 0x11#8 ∧ n = 2))) ∨
  ∃ (bytes : List Byte) (r : WriteReply), e = .busW 0x68#7 (0x00#8 :: bytes) r ∧
    bytes.length = writtenLength p.layout

/-- From `s` to `t` no bus transaction is recorded but the listed ones. -/
def State.reachesListed (s t : State) : Prop :=
  s.recordsOnly (fun e => isBusEvent e = true → listedTransaction s.params e) t

theorem not_isBusEvent_of_isSrEvent {e : Event} (h : isSrEvent e = true) : isBusEvent e ≠ true := by
  cases e with
  | lineSet | delay => simp [isBusEvent]
  | busWR | busW | cancel => simp [isSrEvent] at h

section
variable {s t : State}

theorem State.reachesListed_of_recordsSr (h : s.recordsSr t) : s.reachesListed t :=
  h.mono fun _ he hbus => absurd hbus (not_isBusEvent_of_isSrEvent he)

theorem State.reachesListed_of_hist_eq (h : t.hist = s.hist) : s.reachesListed t := State.recordsOnly_of_hist_eq h

theorem State.cancelSr_reachesListed (s : State) : s.reachesListed s.cancelSr := by
  by_cases hpc : s.srPc = .idle
  · exact State.reachesListed_of_hist_eq (by rw [s.cancelSr_idle hpc])
  · rw [s.cancelSr_eq hpc]
    exact State.recordsOnly_of_hist_append rfl (by simp [isBusEvent])

theorem State.memRead_deliver_reachesListed (s : State) {reg : Byte} {n : Nat} (o : OpOutcome)
    (h : (reg = 0x00#8 ∧ n = 7) ∨ (reg = 0x0F#8 ∧ n = 1) ∨ (reg = 0x11#8 ∧ n = 2)) :
    s.reachesListed ((s.memRead reg n).deliver o) :=
  State.recordsOnly_of_hist_append rfl fun _ => .inl ⟨reg, n, _, rfl, h⟩

/-- The layout fixes how many bytes a date takes (42_rtc.md R242). -/
theorem timeBytes_length (layout : RtcLayout) (weekday : Byte) (d : DateTime) :
    (timeBytes layout weekday d).length = writtenLength layout := by
  cases layout <;> rfl

theorem State.writeTime_reachesListed (s : State) (weekday : Byte) (d : DateTime) (o : OpOutcome) :
    s.reachesListed ((s.memWrite regTime (timeBytes s.params.layout weekday d)).deliver o) :=
  State.recordsOnly_of_hist_append rfl fun _ => .inr ⟨_, _, rfl, timeBytes_length _ _ _⟩

theorem exec_reachesListed {i : Instr} (h : exec i s = .next t) : s.reachesListed t := by
  cases hi : isSr i with
  | true =>
    obtain ⟨op, bytes, he⟩ := exec_isSr hi s
    exact State.reachesListed_of_recordsSr (srStart_recordsSr (he ▸ h))
  | false =>
    cases i with
    | segEncode | bcdDec => cases h; exact State.reachesListed_of_hist_eq rfl
    | bcdEnc => cases h; split <;> exact State.reachesListed_of_hist_eq rfl
    | rtcInit | rtcGetDatetime => cases h; exact s.memRead_deliver_reachesListed _ (.inl ⟨rfl, rfl⟩)
    | rtcIsBusy => cases h; exact s.memRead_deliver_reachesListed _ (.inr (.inl ⟨rfl, rfl⟩))
    | rtcGetTemperature => cases h; exact s.memRead_deliver_reachesListed _ (.inr (.inr ⟨rfl, rfl⟩))
    | rtcSetDatetime d =>
      cases h
      split
      · exact s.writeTime_reachesListed _ d _
      · exact State.reachesListed_of_hist_eq rfl
    | srInit | srPushByte | srPushBytes | srTransfer | srPushByteAndTransfer | srPushBytesAndTransfer | srSetOutputs
    | srClearOutputs | srSetAllOutputs => simp [isSr, pushForm] at hi

theorem srResume_reachesListed (h : srResume s = .next t) : s.reachesListed t :=
  State.reachesListed_of_recordsSr (srResume_recordsSr h)

end

/-- Settles O47: of all an agent's move can do, only the RTC operations record a transaction, each a listed one. -/
theorem onlyTheseRegistersAreReached : Obligations.OnlyTheseRegistersAreReached := by
  intro s t hst
  show s.reachesListed t
  -- taking the act off the HOST's list changes neither the history nor the parameters
  have hpop (h : s.popHost.reachesListed t) : s.reachesListed t := h
  rcases step_cases hst with ⟨w, oob, rest, i, -, -, ht⟩ | ⟨w, oob, rest, why, -, -, ht⟩ | ⟨rest, -, ht⟩ |
    ⟨rest, -, ht⟩ | ⟨rest, -, -, ht⟩ | ⟨rest, -, -, ht⟩ | ⟨-, ht⟩
  · exact hpop (exec_reachesListed ht.symm)
  · cases ht
    exact State.reachesListed_of_hist_eq rfl
  · cases ht
    exact hpop s.popHost.cancelSr_reachesListed
  · exact hpop (srResume_reachesListed ht.symm)
  · cases ht
    exact State.reachesListed_of_hist_eq rfl
  · exact srResume_reachesListed ht.symm
  · exact srResume_reachesListed ht.symm

end Sys2Proof.Machine
end

section
/-! PROOF of O2. Each operation's word selects the row of its format, which reads its operands back (spec/30_encoding.md
R101, R103, R105). -/

namespace Sys2Proof

/-- The format of an operation's word, with the constructor its operands go to (30_encoding.md R101, R103). -/
def Instr.format : Instr → Format
  | .segEncode _ _ _ => .seg .segEncode
  | .srInit => .none .srInit
  | .srPushByte _ => .imm .srPushByte
  | .srPushBytes _ => .list .srPushBytes
  | .srTransfer => .none .srTransfer
  | .srPushByteAndTransfer _ => .imm .srPushByteAndTransfer
  | .srPushBytesAndTransfer _ => .list .srPushBytesAndTransfer
  | .srSetOutputs _ => .imm .srSetOutputs
  | .srClearOutputs => .none .srClearOutputs
  | .srSetAllOutputs => .none .srSetAllOutputs
  | .rtcInit => .none .rtcInit
  | .rtcGetDatetime => .none .rtcGetDatetime
  | .rtcSetDatetime _ => .record .rtcSetDatetime
  | .rtcGetTemperature => .none .rtcGetTemperature
  | .rtcIsBusy => .none .rtcIsBusy
  | .bcdDec _ => .imm .bcdDec
  | .bcdEnc _ => .imm .bcdEnc

/-- SEG.ENCODE's word is two bytes, the first of them the flags (30_encoding.md R101). -/
theorem word_segEncode (decimal : Byte) (dot on : Bool) :
    (Instr.segEncode decimal dot on).word = opWord (0#6 ++ BitVec.ofBool on ++ BitVec.ofBool dot) decimal := rfl

theorem segFlags_and_mask (dot on : Bool) : (0#6 ++ BitVec.ofBool on ++ BitVec.ofBool dot) &&& 0xFC#8 = 0#8 := by
  cases dot <;> cases on <;> rfl

/-- Beside any out-of-band operand, an operation's word is read by its own format (30_encoding.md R106). -/
theorem decode_word (i : Instr) (oob : Oob) : decode i.word oob = i.format.operands i.word oob := by
  cases i with
  | segEncode decimal dot on =>
    simp [word_segEncode, decode, selectRow, opcodeTable, Row.selects_opWord, segFlags_and_mask, Instr.format]
  | srPushByte v | srPushByteAndTransfer v | srSetOutputs v | bcdDec v | bcdEnc v =>
    simp [Instr.word, decode, selectRow, opcodeTable, Row.selects_opWord, Instr.format]
  | srPushBytes | srPushBytesAndTransfer | rtcSetDatetime =>
    simp [Instr.word, decode, selectRow, opcodeTable, Row.selects, Instr.format]
  | srInit | srTransfer | srClearOutputs | srSetAllOutputs | rtcInit | rtcGetDatetime | rtcGetTemperature
  | rtcIsBusy => rfl

/-- Bits 8 and 9 of SEG.ENCODE's word are its flags `dot` and `on` (30_encoding.md R103). -/
theorem word_segEncode_flags (decimal : Byte) (dot on : Bool) :
    (Instr.segEncode decimal dot on).word.getLsbD 8 = dot ∧ (Instr.segEncode decimal dot on).word.getLsbD 9 = on := by
  rw [word_segEncode, opWord_getLsbD, opWord_getLsbD]
  cases dot <;> cases on <;> exact ⟨rfl, rfl⟩

/-- The format of an operation reads its operands back from its word and out-of-band operand. -/
theorem format_operands_word (i : Instr) : i.format.operands i.word i.oob = .ok i := by
  cases i with
  | segEncode decimal dot on =>
    obtain ⟨hdot, hon⟩ := word_segEncode_flags decimal dot on
    obtain ⟨-, himm⟩ := Laws.WordUnit.segEncode decimal dot on
    simp only [Instr.format, Format.operands, himm, hdot, hon, Laws.WordUnit.immOf]
  | srPushByte v | srPushByteAndTransfer v | srSetOutputs v | bcdDec v | bcdEnc v =>
    simp [Instr.format, Instr.oob, Instr.word, Format.operands]
  | srInit | srPushBytes | srTransfer | srPushBytesAndTransfer | srClearOutputs | srSetAllOutputs | rtcInit
  | rtcGetDatetime | rtcSetDatetime | rtcGetTemperature | rtcIsBusy => rfl

/-- Settles O2: the word selects its format's row, and that row reads the operands back. -/
theorem decodeOfEncodeIsTheInstruction : Obligations.DecodeOfEncodeIsTheInstruction :=
  fun i => (decode_word i i.oob).trans (format_operands_word i)

end Sys2Proof
end

section
/-! PROOF of O34. How a push ends, whatever operation it belongs to, and what a latch pulse after it does
(spec/41_shift_register.md R121, R177, R179, R183). -/

namespace Sys2Proof.Machine

/-! ## The operation kept beside the position steers nothing before the end of a push -/

/-- The same state with operation `op` in progress. -/
def State.withOp (s : State) (op : SrOp) : State := { s with srOp := some op }

section
variable (s : State) (op : SrOp)

theorem State.withOp_driveLow (l : Line) : (s.withOp op).driveLow l = (s.driveLow l).withOp op := rfl

theorem State.withOp_clockUp (j : Nat) (i : Fin 8) :
    ((s.withOp op).driveHigh .clk).suspend .high (.sHigh j i) =
      ((s.driveHigh .clk).suspend .high (.sHigh j i)).withOp op := by
  rw [State.clockUp_eq, State.clockUp_eq]
  rfl

theorem State.withOp_dataSetup (j : Nat) (i : Fin 8) (v : Byte) :
    (s.withOp op).dataSetup j i v = (s.dataSetup j i v).withOp op := by
  rw [State.dataSetup_eq, State.dataSetup_eq]
  rfl

theorem State.withOp_dataRest : (s.withOp op).dataRest = s.dataRest.withOp op := by
  rw [State.dataRest, State.dataRest, apply_ite (State.withOp · op)]
  rfl

theorem State.withOp_latchUp : (s.withOp op).latchUp = s.latchUp.withOp op := by
  rw [State.latchUp_eq, State.latchUp_eq]
  rfl

end

/-! ## One bit of a push -/

/-- CLK rises at bit `i` of byte `j` and, after the delay, falls again (41_shift_register.md R172). -/
def State.clockPulse (s : State) (j : Nat) (i : Fin 8) : State :=
  ((s.driveHigh .clk).suspend .high (.sHigh j i)).driveLow .clk

theorem State.clockPulse_sameButWires (s : State) (j : Nat) (i : Fin 8) : s.sameButWires (s.clockPulse j i) := by
  simp [State.clockPulse, State.sameButWires]

section
variable {s : State} {j : Nat} {i : Fin 8} {v : Byte} (hpc : s.srPc = .sSetup j i) (hv : s.srBytes[j]? = some v)
  (op : SrOp)
include hpc hv

/-- A bit takes two delays: CLK rises at the end of the first and falls at the end of the second. -/
theorem srResumeTimes_two_withOp : srResumeTimes 2 (s.withOp op) =
    .next ((((s.driveHigh .clk).suspend .high (.sHigh j i)).withOp op).bitEnd j i v op) := by
  have hup : srResume (s.withOp op) = .next (((s.driveHigh .clk).suspend .high (.sHigh j i)).withOp op) := by
    rw [← State.withOp_clockUp]
    simp [srResume, State.withOp, hpc]
  rw [srResumeTimes_succ 1 hup]
  simp [srResumeTimes, srResume, State.withOp, hv]

/-- The two delays of a bit above bit 0 lead to the next bit of the byte. -/
theorem srResumeTimes_two_of_pos (hi : 0 < i.val) : srResumeTimes 2 (s.withOp op) =
    .next (((s.clockPulse j i).dataSetup j (i - 1) v).withOp op) := by
  rw [srResumeTimes_two_withOp hpc hv, State.bitEnd, if_pos hi, State.withOp_driveLow, State.withOp_dataSetup]
  rfl

/-- The two delays of bit 0 lead to the end of the byte. -/
theorem srResumeTimes_two_of_zero (hi : ¬ 0 < i.val) : srResumeTimes 2 (s.withOp op) =
    .next (((s.clockPulse j i).withOp op).byteEnd j op) := by
  rw [srResumeTimes_two_withOp hpc hv, State.bitEnd, if_neg hi, State.withOp_driveLow]
  rfl

end

/-- The end of a byte that is not the last leads to the first bit of the next byte. -/
theorem State.withOp_byteEnd_of_some {s : State} {j : Nat} {v : Byte} (hv : s.srBytes[j + 1]? = some v) (op : SrOp) :
    (s.withOp op).byteEnd j op = (s.dataRest.dataSetup (j + 1) 7 v).withOp op := by
  have hv' : (s.withOp op).srBytes[j + 1]? = some v := hv
  simp only [State.byteEnd, hv', State.withOp_dataRest, State.withOp_dataSetup]

/-- The end of the last byte ends the push. -/
theorem State.withOp_byteEnd_of_none {s : State} {j : Nat} (hv : s.srBytes[j + 1]? = none) (op : SrOp) :
    (s.withOp op).byteEnd j op = (s.dataRest.withOp op).afterPush op := by
  have hv' : (s.withOp op).srBytes[j + 1]? = none := hv
  simp only [State.byteEnd, hv', State.withOp_dataRest]

/-! ## The end of a push -/

/-- In `k` delays the push that stands at `s` ends at `w`, whatever operation it belongs to, and has moved only the
wires. -/
def State.PushEnds (k : Nat) (s w : State) : Prop :=
  s.sameButWires w ∧ ∀ op, srResumeTimes k (s.withOp op) = .next ((w.withOp op).afterPush op)

/-- A push that goes on to `t` in two delays ends two delays later than from `t`. -/
theorem State.PushEnds.of_two {k : Nat} {s t w : State} (same : s.sameButWires t)
    (hst : ∀ op, srResumeTimes 2 (s.withOp op) = .next (t.withOp op)) (h : t.PushEnds k w) :
    s.PushEnds (2 + k) w := by
  obtain ⟨same', hend⟩ := h
  exact ⟨State.sameButWires_trans same same', fun op => (srResumeTimes_add k (hst op)).trans (hend op)⟩

/-- In the setup delay of a bit of the push, with `m` bits of it to come after that one. -/
def State.BitsLeft (m : Nat) (s : State) : Prop :=
  ∃ (j n : Nat) (i : Fin 8), s.srPc = .sSetup j i ∧ j + 1 + n = s.srBytes.length ∧ m = i.val + 8 * n

/-- In two delays a push with bits to come goes on to the next bit, of the same byte or of the next one. -/
theorem State.BitsLeft.next {m : Nat} {s : State} (h : s.BitsLeft (m + 1)) :
    ∃ t, t.BitsLeft m ∧ s.sameButWires t ∧ ∀ op, srResumeTimes 2 (s.withOp op) = .next (t.withOp op) := by
  obtain ⟨j, n, i, hpc, hj, hm⟩ := h
  obtain ⟨v, hv⟩ : ∃ v, s.srBytes[j]? = some v := ⟨_, List.getElem?_eq_getElem (by omega)⟩
  have hpulse := s.clockPulse_sameButWires j i
  by_cases hi : 0 < i.val
  · have hpred : (i - 1).val = i.val - 1 := by simpa using Fin.sub_val_of_le (show (1 : Fin 8) ≤ i from hi)
    have same := State.sameButWires_trans hpulse (State.dataSetup_sameButWires _ j (i - 1) v)
    obtain ⟨-, -, -, hbytes, -⟩ := id same
    exact ⟨_, ⟨j, n, i - 1, rfl, by rw [hbytes, hj], by omega⟩, same,
      fun op => srResumeTimes_two_of_pos hpc hv op hi⟩
  · obtain ⟨n, rfl⟩ : ∃ n', n = n' + 1 := ⟨n - 1, by omega⟩
    obtain ⟨-, -, -, hpulseBytes, -⟩ := id hpulse
    obtain ⟨v', hv'⟩ : ∃ v', (s.clockPulse j i).srBytes[j + 1]? = some v' :=
      ⟨_, List.getElem?_eq_getElem (by rw [hpulseBytes]; omega)⟩
    have hrest := State.sameButWires_trans hpulse (State.dataRest_sameButWires _)
    have same := State.sameButWires_trans hrest (State.dataSetup_sameButWires _ (j + 1) 7 v')
    obtain ⟨-, -, -, hbytes, -⟩ := id same
    refine ⟨_, ⟨j + 1, n, 7, rfl, by rw [hbytes]; omega, by simp; omega⟩, same, fun op => ?_⟩
    rw [srResumeTimes_two_of_zero hpc hv op hi, State.withOp_byteEnd_of_some hv']

/-- In two delays the last bit of a push ends it. -/
theorem State.BitsLeft.last {s : State} (h : s.BitsLeft 0) : ∃ w, s.PushEnds 2 w := by
  obtain ⟨j, n, i, hpc, hj, hm⟩ := h
  obtain ⟨v, hv⟩ : ∃ v, s.srBytes[j]? = some v := ⟨_, List.getElem?_eq_getElem (by omega)⟩
  have hpulse := s.clockPulse_sameButWires j i
  obtain ⟨-, -, -, hpulseBytes, -⟩ := id hpulse
  have hlast : (s.clockPulse j i).srBytes[j + 1]? = none := List.getElem?_eq_none (by rw [hpulseBytes]; omega)
  refine ⟨_, State.sameButWires_trans hpulse (State.dataRest_sameButWires _), fun op => ?_⟩
  rw [srResumeTimes_two_of_zero hpc hv op (by omega), State.withOp_byteEnd_of_none hlast]

/-- A push ends in two delays for each of its bits that is left. -/
theorem State.BitsLeft.pushEnds {m : Nat} {s : State} (h : s.BitsLeft m) : ∃ w, s.PushEnds (2 * (m + 1)) w := by
  induction m generalizing s with
  | zero => exact h.last
  | succ m ih =>
    obtain ⟨t, ht, same, htwo⟩ := h.next
    obtain ⟨w, hw⟩ := ih ht
    rw [show 2 * (m + 1 + 1) = 2 + 2 * (m + 1) by omega]
    exact ⟨w, hw.of_two same htwo⟩

/-- Sixteen delays a byte after it has started, a push form stands at the end of its push, at the same state for every
operation that pushes these bytes. -/
theorem exec_pushForm_pushEnds (bytes : List Byte) {s : State} (husable : s.srUsable) :
    ∃ w : State, w.srReady = true ∧ ∀ i op, pushForm i = some (op, bytes) →
      ∃ t, exec i s = .next t ∧ srResumeTimes (16 * bytes.length) t = .next ((w.withOp op).afterPush op) := by
  cases bytes with
  | nil =>
    exact ⟨{ s with srBytes := [] }, husable.2, fun i op hform => ⟨_, exec_pushForm_usable hform husable, rfl⟩⟩
  | cons v vs =>
    obtain ⟨w, same, hw⟩ : ∃ w, State.PushEnds (2 * (7 + 8 * vs.length + 1))
        (State.dataSetup { s with srBytes := v :: vs } 0 7 v) w :=
      State.BitsLeft.pushEnds ⟨0, vs.length, 7, rfl, by simp [State.dataSetup_eq, Nat.add_comm], rfl⟩
    refine ⟨w, ?_, fun i op hform => ⟨_, exec_pushForm_usable hform husable, ?_⟩⟩
    · obtain ⟨-, hready, -⟩ := State.sameButWires_trans (State.dataSetup_sameButWires _ 0 7 v) same
      exact hready.trans husable.2
    · rw [List.length_cons, show 16 * (vs.length + 1) = 2 * (7 + 8 * vs.length + 1) by omega, ← hw op,
        ← State.withOp_dataSetup]
      rfl

/-- The end of the latch delay ends the operation, and with it what was kept of it. -/
theorem srResume_afterPush_of_latches {op : SrOp} (hlat : op.latches = true) (w : State) :
    srResumeTimes 1 ((w.withOp op).afterPush op) = .next (w.latchUp.driveLow .latch).srReturn := by
  rw [State.afterPush, if_pos hlat, State.withOp_latchUp]
  rfl

/-- Settles O34: the push ends alike in both, and the latch pulse then finds the same lines, chain and draws. -/
theorem compositeIsPushThenTransfer : Obligations.CompositeIsPushThenTransfer := by
  intro bytes s husable
  obtain ⟨w, hready, hends⟩ := exec_pushForm_pushEnds bytes husable
  obtain ⟨t, hexec, hpush⟩ := hends (.srPushBytesAndTransfer bytes) .pushBytesAndTransfer rfl
  obtain ⟨t1, hexec1, hpush1⟩ := hends (.srPushBytes bytes) .pushBytes rfl
  have hexec2 : exec .srTransfer w.srReturn = .next ((w.srReturn.withOp .transfer).afterPush .transfer) :=
    exec_pushForm_usable (bytes := []) rfl ⟨rfl, hready⟩
  refine ⟨t, (w.latchUp.driveLow .latch).srReturn, t1, w.srReturn, _, _, hexec, ?_, hexec1, hpush1, hexec2,
    srResume_afterPush_of_latches rfl _, ?_⟩
  · exact (srResumeTimes_add 1 hpush).trans (srResume_afterPush_of_latches rfl w)
  · rw [State.latchUp_eq, State.latchUp_eq]
    rfl

end Sys2Proof.Machine
end

section
/-! PROOF of O33. The other names of SR.PUSH_BYTE_AND_TRANSFER (spec/41_shift_register.md R180 to R182). -/

namespace Sys2Proof.Machine

/-- Two transfer forms that push the same bytes end in the same state. -/
theorem exec_pushForm_latches_end_alike {bytes : List Byte} {s : State} (husable : s.srUsable) :
    ∃ u : State, ∀ i op, pushForm i = some (op, bytes) → op.latches = true →
      ∃ t, exec i s = .next t ∧ srResumeTimes (16 * bytes.length + 1) t = .next u := by
  obtain ⟨w, -, hends⟩ := exec_pushForm_pushEnds bytes husable
  refine ⟨(w.latchUp.driveLow .latch).srReturn, fun i op hform hlat => ?_⟩
  obtain ⟨t, hexec, hpush⟩ := hends i op hform
  exact ⟨t, hexec, (srResumeTimes_add 1 hpush).trans (srResume_afterPush_of_latches hlat w)⟩

/-- Settles O33: each of the three is a transfer form that pushes the one byte `v`. -/
theorem aliasesEndAsPushByteAndTransfer : Obligations.AliasesEndAsPushByteAndTransfer := by
  intro v i s husable halias
  obtain ⟨op, hform, hlat⟩ : ∃ op, pushForm i = some (op, [v]) ∧ op.latches = true := by
    rcases halias with rfl | ⟨rfl, rfl⟩ | ⟨rfl, rfl⟩
    · exact ⟨.setOutputs, rfl, rfl⟩
    · exact ⟨.clearOutputs, rfl, rfl⟩
    · exact ⟨.setAllOutputs, rfl, rfl⟩
  obtain ⟨u, hends⟩ := exec_pushForm_latches_end_alike (bytes := [v]) husable
  obtain ⟨t, hexec, hrun⟩ := hends i op hform hlat
  obtain ⟨t', hexec', hrun'⟩ := hends (.srPushByteAndTransfer v) .pushByteAndTransfer rfl rfl
  exact ⟨t, t', u, hexec, hexec', hrun, hrun'⟩

end Sys2Proof.Machine
end

section
/-! PROOF of O4. The rows of the opcode map exclude each other (spec/30_encoding.md R106). -/

namespace Sys2Proof

/-- Two rows whose values differ in a bit that both masks look at have no word in common. -/
theorem Row.not_selects_both {r r' : Row} (h : r.value &&& r'.mask ≠ r'.value &&& r.mask) (w : OpWord) :
    ¬ (r.selects w = true ∧ r'.selects w = true) := by
  rintro ⟨hr, hr'⟩
  rw [Row.selects, beq_iff_eq] at hr hr'
  apply h
  rw [← hr, ← hr', BitVec.and_assoc, BitVec.and_assoc, BitVec.and_comm r.mask]

/-- Settles O4: any two rows differ in a bit that both masks look at. -/
theorem noWordSelectsTwoRows : Obligations.NoWordSelectsTwoRows := by
  have hdiffer : opcodeTable.Pairwise fun r r' => r.value &&& r'.mask ≠ r'.value &&& r.mask := by decide
  exact hdiffer.imp Row.not_selects_both

end Sys2Proof
end

section
/-! PROOF of O5. The reserved words are those that select no row (spec/30_encoding.md R106, R115). -/

namespace Sys2Proof

/-- A row's operands may be refused, but not as a reserved encoding (30_encoding.md R107). -/
theorem Format.operands_ne_reserved (f : Format) (w : OpWord) (oob : Oob) :
    f.operands w oob ≠ .refused .reservedEncoding := by
  cases f <;> cases oob <;> simp [Format.operands]

theorem decode_eq_reserved_iff (w : OpWord) (oob : Oob) :
    decode w oob = .refused .reservedEncoding ↔ selectRow w = none := by
  cases h : selectRow w with
  | none => simp [decode, h]
  | some r => simp [decode, h, r.format.operands_ne_reserved w oob]

theorem Byte.and_ones (b : Byte) : b &&& 255#8 = b := BitVec.and_allOnes

/-- Of the low byte a row asks nothing, or that it is 0 (30_encoding.md R103, R106). -/
theorem low_byte_of_mem_opcodeTable : ∀ r ∈ opcodeTable, r.value.extractLsb' 0 8 = 0#8 ∧
    (r.mask.extractLsb' 0 8 = 0#8 ∨ r.mask.extractLsb' 0 8 = BitVec.allOnes 8) := by decide

/-- So a row of the map selects a word by its high byte and by whether its low byte is 0. -/
theorem Row.selects_opWord_of_mem {r : Row} (hr : r ∈ opcodeTable) (hi lo : Byte) :
    r.selects (opWord hi lo) = true ↔ hi &&& r.mask.extractLsb' 8 8 = r.value.extractLsb' 8 8 ∧
      (r.mask.extractLsb' 0 8 = 0#8 ∨ lo = 0#8) := by
  obtain ⟨hvalue, hmask⟩ := low_byte_of_mem_opcodeTable r hr
  rw [Row.selects_opWord, hvalue]
  rcases hmask with hmask | hmask
  · simp [hmask]
  · simp [hmask, Byte.and_ones]

/-- R115's list, for a word whose immediate byte is 0 or not, against what the rows ask of its two bytes. -/
theorem reservedFields_iff_no_row (hi : Byte) : ∀ immZero : Bool,
    Machine.reservedFields (hi.extractLsb' 4 4).toNat (hi.extractLsb' 0 4).toNat (if immZero then 0 else 1) ↔
      ∀ r ∈ opcodeTable, ¬ (hi &&& r.mask.extractLsb' 8 8 = r.value.extractLsb' 8 8 ∧
        (r.mask.extractLsb' 0 8 = 0#8 ∨ immZero = true)) := by
  unfold Machine.reservedFields
  revert hi
  decide

/-- A word is in R115's list just when no row selects it. -/
theorem selectRow_eq_none_iff (w : OpWord) : selectRow w = none ↔ Machine.reservedWord w := by
  obtain ⟨hi, lo, rfl⟩ : ∃ hi lo, w = opWord hi lo := ⟨_, _, (opWord_bytes w).symm⟩
  have hzero : lo.toNat = 0 ↔ lo = 0#8 := by rw [← BitVec.toNat_inj]; rfl
  have hlist : Machine.reservedWord (opWord hi lo) ↔ Machine.reservedFields (hi.extractLsb' 4 4).toNat
      (hi.extractLsb' 0 4).toNat (if decide (lo = 0#8) then 0 else 1) := by
    by_cases h0 : lo = 0#8 <;> simp [Machine.reservedWord, Machine.reservedFields, hzero, h0]
  rw [hlist, reservedFields_iff_no_row, selectRow, List.find?_eq_none]
  refine forall₂_congr fun r hr => ?_
  rw [Row.selects_opWord_of_mem hr, decide_eq_true_iff]

end Sys2Proof

namespace Sys2Proof.Machine

/-- Settles O5: a word is refused as reserved when no row selects it, and presenting it is then a refusal. -/
theorem reservedWordsSetTheRefusalMark : Obligations.ReservedWordsSetTheRefusalMark := by
  have hreserved (w : OpWord) (oob : Oob) : decode w oob = .refused .reservedEncoding ↔ reservedWord w :=
    (decode_eq_reserved_iff w oob).trans (selectRow_eq_none_iff w)
  refine ⟨hreserved, fun s w oob hw => ?_⟩
  rw [present, (hreserved w oob).mpr hw]
  rfl

end Sys2Proof.Machine
end

section
/-! PROOF of O3. What the row of a word makes of it (spec/30_encoding.md R106, R107). -/

namespace Sys2Proof

/-- Whatever operation a format reads from `w`, `w` is that operation's word, and its out-of-band operand is the one the
format takes. -/
def Format.Names (w : OpWord) : Format → Prop
  | .seg mk => mk = .segEncode ∧ (Instr.segEncode (immByte w) (w.getLsbD 8) (w.getLsbD 9)).word = w
  | .none i => i.word = w ∧ i.oob = .absent
  | .imm mk => (mk (immByte w)).word = w ∧ (mk (immByte w)).oob = .absent
  | .list mk => ∀ bytes, (mk bytes).word = w ∧ (mk bytes).oob = .list bytes
  | .record mk => ∀ t, (mk t).word = w ∧ (mk t).oob = .record t

/-- SEG.ENCODE's row asks that all but the two flags of the first byte be 0. -/
theorem segFlags_of_and_mask : ∀ hi : Byte, hi &&& 0xFC#8 = 0#8 →
    0#6 ++ BitVec.ofBool (hi.getLsbD 1) ++ BitVec.ofBool (hi.getLsbD 0) = hi := by decide

theorem opWord_zero (hi : Byte) : opWord hi 0#8 = hi ++ 0#8 := rfl

/-- Each row's format names the words the row selects. -/
theorem format_names_of_selects {r : Row} (hr : r ∈ opcodeTable) {w : OpWord} (h : r.selects w = true) :
    r.format.Names w := by
  obtain ⟨hi, lo, rfl⟩ : ∃ hi lo, w = opWord hi lo := ⟨_, _, (opWord_bytes w).symm⟩
  rw [Row.selects_opWord_of_mem hr] at h
  simp only [opcodeTable, List.mem_cons, List.not_mem_nil, or_false] at hr
  rcases hr with rfl | rfl | rfl | rfl | rfl | rfl | rfl | rfl | rfl | rfl | rfl | rfl | rfl | rfl | rfl | rfl | rfl
  · refine ⟨rfl, ?_⟩
    rw [word_segEncode, immByte_opWord, opWord_getLsbD, opWord_getLsbD]
    exact congrArg (opWord · lo) (segFlags_of_and_mask hi h.1)
  all_goals simp_all [Format.Names, Instr.word, Instr.oob, Byte.and_ones, opWord_zero]

theorem selectRow_names {w : OpWord} {r : Row} (h : selectRow w = some r) : r.format.Names w :=
  format_names_of_selects (List.mem_of_find?_eq_some h) (List.find?_some (p := (Row.selects · w)) h)

/-- An operation that a format reads has the word and, but for the SEG format, the out-of-band operand it was read
from. -/
theorem Format.Names.encode_of_operands {w : OpWord} {f : Format} (h : f.Names w) {oob : Oob} {i : Instr}
    (hi : f.operands w oob = .ok i) :
    i.word = w ∧ (i.oob = oob ∨ ∃ decimal dot on, i = .segEncode decimal dot on) := by
  cases f with
  | seg mk =>
    obtain ⟨rfl, hword⟩ := h
    cases hi
    exact ⟨hword, .inr ⟨_, _, _, rfl⟩⟩
  | none | imm =>
    obtain ⟨hword, hoob⟩ := h
    cases oob <;> cases hi
    exact ⟨hword, .inl hoob⟩
  | list | record =>
    cases oob <;> cases hi
    obtain ⟨hword, hoob⟩ := h _
    exact ⟨hword, .inl hoob⟩

/-- Settles O3, by what the selected row's format names. -/
theorem encodeOfDecodeIsTheWord : Obligations.EncodeOfDecodeIsTheWord := by
  intro w oob i hd
  cases hr : selectRow w with
  | none => simp [decode, hr] at hd
  | some r =>
    rw [decode, hr] at hd
    exact (selectRow_names hr).encode_of_operands hd

end Sys2Proof
end

section
/-! PROOF of O6. Which out-of-band operand each word is refused beside (spec/30_encoding.md R105, R107). -/

namespace Sys2Proof

/-- The operations with a byte list beside their word. -/
theorem word_of_oob_list {i : Instr} {bytes : List Byte} (h : i.oob = .list bytes) :
    i.word = 0x1200#16 ∨ i.word = 0x1500#16 := by
  cases i <;> cases h
  · exact .inl rfl
  · exact .inr rfl

/-- The operation with a record beside its word. -/
theorem word_of_oob_record {i : Instr} {t : DateTime} (h : i.oob = .record t) : i.word = 0x2200#16 := by
  cases i <;> cases h
  rfl

theorem Format.operands_list_of_ne (mk : List Byte → Instr) (w : OpWord) {oob : Oob}
    (h : ∀ bytes, oob ≠ .list bytes) : (Format.list mk).operands w oob = .refused .missingOperand := by
  cases oob with
  | list bytes => exact absurd rfl (h bytes)
  | absent | record => rfl

theorem Format.operands_record_of_ne (mk : DateTime → Instr) (w : OpWord) {oob : Oob} (h : ∀ t, oob ≠ .record t) :
    (Format.record mk).operands w oob = .refused .missingOperand := by
  cases oob with
  | record t => exact absurd rfl (h t)
  | absent | list => rfl

/-- A format that names a word of no SEG, list or record form takes no out-of-band operand. -/
theorem Format.Names.extraOperand {w : OpWord} {f : Format} (h : f.Names w) (hseg : (unitField w).toNat ≠ 0)
    (hlist : w ≠ 0x1200#16) (hlist' : w ≠ 0x1500#16) (hrecord : w ≠ 0x2200#16) {oob : Oob}
    (hoob : oob ≠ .absent) : f.operands w oob = .refused .extraOperand := by
  cases f with
  | seg mk =>
    obtain ⟨-, hword⟩ := h
    obtain ⟨hunit, -⟩ := Laws.WordUnit.segEncode (immByte w) (w.getLsbD 8) (w.getLsbD 9)
    rw [hword] at hunit
    exact absurd (congrArg BitVec.toNat hunit) hseg
  | none | imm =>
    cases oob with
    | absent => exact absurd rfl hoob
    | list | record => rfl
  | list mk =>
    obtain ⟨hword, hoob⟩ := h []
    rcases hword ▸ word_of_oob_list hoob with hw | hw
    · exact absurd hw hlist
    · exact absurd hw hlist'
  | record mk =>
    obtain ⟨hword, hoob⟩ := h ⟨2000, 1, 1, 0, 0, 0⟩
    exact absurd (hword ▸ word_of_oob_record hoob) hrecord

/-- Settles O6, by the format each word is read in. -/
theorem outOfBandOperandIsChecked : Obligations.OutOfBandOperandIsChecked := by
  refine ⟨fun decimal dot on oob => ?_, fun w oob hw hlist => ?_, fun oob hrecord => ?_,
    fun w oob hw hseg hlist hlist' hrecord hoob => ?_⟩
  · exact (decode_word (.segEncode decimal dot on) oob).trans (format_operands_word (.segEncode decimal dot on))
  · rcases hw with rfl | rfl
    · exact (decode_word (.srPushBytes []) oob).trans (Format.operands_list_of_ne _ _ hlist)
    · exact (decode_word (.srPushBytesAndTransfer []) oob).trans (Format.operands_list_of_ne _ _ hlist)
  · exact (decode_word (.rtcSetDatetime ⟨2000, 1, 1, 0, 0, 0⟩) oob).trans (Format.operands_record_of_ne _ _ hrecord)
  · obtain ⟨r, hr⟩ := Option.ne_none_iff_exists'.mp (mt (selectRow_eq_none_iff w).mp hw)
    rw [decode, hr]
    exact (selectRow_names hr).extraOperand hseg hlist hlist' hrecord hoob

end Sys2Proof
end

section
/-! PROOF of O1. Words of spec/95_test_vectors.md. -/

namespace Sys2Proof

/-- Settles O1: each word is the operation's own. -/
theorem tableWordsDecodeAsWritten : Obligations.TableWordsDecodeAsWritten :=
  ⟨decodeOfEncodeIsTheInstruction (.segEncode 8#8 true true),
    decodeOfEncodeIsTheInstruction (.segEncode 5#8 true false),
    decodeOfEncodeIsTheInstruction .srInit, decodeOfEncodeIsTheInstruction (.srPushByte 0xFF#8),
    decodeOfEncodeIsTheInstruction (.srPushBytesAndTransfer [0xCC#8, 0x9B#8]),
    decodeOfEncodeIsTheInstruction (.srSetOutputs 0x3C#8),
    decodeOfEncodeIsTheInstruction (.rtcSetDatetime ⟨2024, 12, 31, 23, 59, 58⟩),
    decodeOfEncodeIsTheInstruction .rtcIsBusy, decodeOfEncodeIsTheInstruction (.bcdEnc 23#8)⟩

end Sys2Proof
end

section
/-! PROOF of O11. The value of SEG.ENCODE, bit by bit (spec/40_segment_encoder.md R146, R147). -/

namespace Sys2Proof.Machine

/-! ## The table -/

/-- The pattern is the decimal's row; above 9 there is no row, and no segment (40_segment_encoder.md R146). -/
theorem segPattern_eq_getD (t : SegTable) (decimal : Byte) : segPattern t decimal = t.rows.getD decimal.toNat 0#8 := by
  unfold segPattern
  generalize decimal.toNat = n
  match n with
  | 0 | 1 | 2 | 3 | 4 | 5 | 6 | 7 | 8 | 9 | _ + 10 => rfl

theorem segPattern_of_le {decimal : Byte} (h : decimal.toNat ≤ 9) (t : SegTable) :
    some (segPattern t decimal) = t.rows[decimal.toNat]? := by
  have hlt : decimal.toNat < t.rows.length := Nat.lt_succ_of_le h
  rw [segPattern_eq_getD, List.getD_eq_getElem _ _ hlt, List.getElem?_eq_getElem hlt]

theorem segPattern_of_gt {decimal : Byte} (h : 9 < decimal.toNat) (t : SegTable) : segPattern t decimal = 0#8 := by
  rw [segPattern_eq_getD, List.getD_eq_default]
  exact h

/-- Under a table as R144 asks, no pattern has the decimal point's bit. -/
theorem segPattern_getLsbD_five {t : SegTable} (h : t.noDot) (decimal : Byte) :
    (segPattern t decimal).getLsbD 5 = false := by
  rcases Nat.lt_or_ge 9 decimal.toNat with hgt | hle
  · rw [segPattern_of_gt hgt]
    rfl
  · exact h _ (List.mem_of_getElem? (segPattern_of_le hle t).symm)

/-! ## The value -/

theorem dotMask_getLsbD (b : Nat) : dotMask.getLsbD b = decide (b = 5) := by
  rw [show dotMask = BitVec.twoPow 8 5 from rfl, BitVec.getLsbD_twoPow]
  simp [eq_comm]

/-- The dot is applied whatever `on` is (40_segment_encoder.md R146). -/
theorem segValue_eq_or (t : SegTable) (decimal : Byte) (dot on : Bool) : segValue t decimal dot on =
    (if on then segPattern t decimal else 0x00#8) ||| if dot then dotMask else 0x00#8 := by
  cases dot <;> simp [segValue]

/-- Bit 5 of the value is the dot; every other bit is the pattern's, gated by `on`. -/
theorem segValue_getLsbD {t : SegTable} (h : t.noDot) (decimal : Byte) (dot on : Bool) (b : Nat) :
    (segValue t decimal dot on).getLsbD b = if b = 5 then dot else on && (segPattern t decimal).getLsbD b := by
  have hsegs : (if on then segPattern t decimal else 0x00#8).getLsbD b = (on && (segPattern t decimal).getLsbD b) := by
    cases on <;> simp
  have hmask : (if dot then dotMask else 0x00#8).getLsbD b = (dot && decide (b = 5)) := by
    cases dot <;> simp [dotMask_getLsbD]
  rw [segValue_eq_or, BitVec.getLsbD_or, hsegs, hmask]
  by_cases hb : b = 5
  · rw [hb, segPattern_getLsbD_five h]
    simp
  · simp [hb]

/-- An off digit has no segment bit (40_segment_encoder.md R147 (b)). -/
theorem segValue_off_and_segments (t : SegTable) (decimal : Byte) (dot : Bool) :
    segValue t decimal dot false &&& 0xDF#8 = 0x00#8 := by
  cases dot <;> simp [segValue, dotMask]

/-- A decimal above 9 is shown as an off digit is. -/
theorem segValue_on_of_gt {decimal : Byte} (h : 9 < decimal.toNat) (t : SegTable) (dot : Bool) :
    segValue t decimal dot true = segValue t decimal dot false := by
  simp [segValue, segPattern_of_gt h]

/-- Settles O11, by the bits of the value and by what the table has for a decimal. -/
theorem segEncodeLaws : Obligations.SegEncodeLaws := by
  intro t hnodot
  refine ⟨fun decimal hle => segPattern_of_le hle t, segValue_off_and_segments t, fun decimal dot on => ⟨?_, ?_⟩,
    fun decimal dot hge => ?_⟩
  · rw [segValue_getLsbD hnodot, if_pos rfl]
  · intro b hb
    rw [segValue_getLsbD hnodot, segValue_getLsbD hnodot, if_neg hb, if_neg hb]
  · rw [segValue_on_of_gt hge, segValue_off_and_segments]

end Sys2Proof.Machine
end

section
/-! PROOF of O10. What SEG.ENCODE reports (spec/40_segment_encoder.md R146). -/

namespace Sys2Proof.Machine

/-- SEG.ENCODE reports its value and does nothing else. -/
theorem exec_segEncode (decimal : Byte) (dot on : Bool) (s : State) : exec (.segEncode decimal dot on) s =
    .next { s with outcomes := s.outcomes ++ [.ok (.u8 (segValue s.params.segTable decimal dot on))] } := rfl

/-- The value is the row of an on decimal of at most 9, else no segment, with the dot bit whatever `on` is. -/
theorem segValue_eq_row_or_dot (t : SegTable) (decimal : Byte) (dot on : Bool) : segValue t decimal dot on =
    (if on = true ∧ decimal.toNat ≤ 9 then t.rows.getD decimal.toNat 0#8 else 0x00#8) |||
      if dot then 0x20#8 else 0x00#8 := by
  have hrow : (if on = true ∧ decimal.toNat ≤ 9 then t.rows.getD decimal.toNat 0#8 else 0x00#8) =
      if on then segPattern t decimal else 0x00#8 := by
    rw [← segPattern_eq_getD]
    rcases Nat.lt_or_ge 9 decimal.toNat with hgt | hle
    · simp [segPattern_of_gt hgt]
    · simp [hle]
  rw [hrow]
  exact segValue_eq_or t decimal dot on

/-- Settles O10, by the reading of SEG.ENCODE's word and by its value. -/
theorem segEncodeReportsThePattern : Obligations.SegEncodeReportsThePattern := by
  intro decimal dot on s hnodot
  obtain ⟨hdecode, -⟩ := outOfBandOperandIsChecked
  refine ⟨hdecode decimal dot on, segValue s.params.segTable decimal dot on,
    segValue_eq_row_or_dot _ _ _ _, ?_, exec_segEncode decimal dot on s⟩
  rw [segValue_getLsbD hnodot, if_pos rfl]

end Sys2Proof.Machine
end

section
/-! PROOF of O12. The default table, segment by segment (spec/40_segment_encoder.md R141, R143, R148). -/

namespace Sys2Proof.Machine

theorem defaultSegTable_noDot : defaultSegTable.noDot := by
  unfold SegTable.noDot
  decide

theorem segmentBit_lt (seg : Segment) : segmentBit seg < 8 := by cases seg <;> decide

theorem segmentBit_eq_five_iff (seg : Segment) : segmentBit seg = 5 ↔ seg = .dp := by cases seg <;> decide

/-- The default table's bytes are those of R143's sets under the wiring of R141. -/
theorem defaultSegTable_segmentBit (decimal : Byte) (seg : Segment) :
    (segPattern defaultSegTable decimal).getLsbD (segmentBit seg) = (litSegments decimal.toNat).contains seg := by
  rw [segPattern_eq_getD]
  generalize decimal.toNat = n
  match n with
  | 0 | 1 | 2 | 3 | 4 | 5 | 6 | 7 | 8 | 9 => cases seg <;> rfl
  | _ + 10 => simp [SegTable.rows, litSegments]

/-- Each segment's bit of the value under the default table: the point is the dot, any other segment is in the decimal's
set and the digit on. -/
theorem segValue_default_segmentBit {t : SegTable} (ht : t = defaultParams.segTable) (decimal : Byte) (dot on : Bool)
    (seg : Segment) : (segValue t decimal dot on).getLsbD (segmentBit seg) =
      if seg = .dp then dot else on && (litSegments decimal.toNat).contains seg := by
  obtain rfl : t = defaultSegTable := ht
  rw [segValue_getLsbD defaultSegTable_noDot, defaultSegTable_segmentBit]
  exact if_congr (segmentBit_eq_five_iff seg) rfl rfl

/-- The decimals that light a segment (40_segment_encoder.md R148): the table of `litSegments` read by columns. -/
def litDecimals : Segment → List Nat
  | .a => [0, 2, 3, 5, 6, 7, 8, 9]
  | .b => [0, 1, 2, 3, 4, 7, 8, 9]
  | .c => [0, 1, 3, 4, 5, 6, 7, 8, 9]
  | .d => [0, 2, 3, 5, 6, 8, 9]
  | .e => [0, 2, 6, 8]
  | .f => [0, 4, 5, 6, 8, 9]
  | .g => [2, 3, 4, 5, 6, 8, 9]
  | .dp => []

theorem litSegments_contains (n : Nat) (seg : Segment) :
    (litSegments n).contains seg = (decide (n ≤ 9) && (litDecimals seg).contains n) := by
  match n with
  | 0 | 1 | 2 | 3 | 4 | 5 | 6 | 7 | 8 | 9 => cases seg <;> rfl
  | _ + 10 => simp [litSegments]

/-- Each segment's equation of R148, the decimal point's apart. -/
theorem segValue_default_equation {t : SegTable} (ht : t = defaultParams.segTable) (decimal : Byte) (dot on : Bool)
    {seg : Segment} (hseg : seg ≠ .dp) : (segValue t decimal dot on).getLsbD (segmentBit seg) =
      ((on && decide (decimal.toNat ≤ 9)) && (litDecimals seg).contains decimal.toNat) := by
  rw [segValue_default_segmentBit ht, if_neg hseg, litSegments_contains, Bool.and_assoc]

/-- Settles O12, by the equation of each segment. -/
theorem segEquationsUnderDefaultTable : Obligations.SegEquationsUnderDefaultTable := by
  intro decimal dot on s ht
  have heq (seg : Segment) (hseg : seg ≠ .dp) := segValue_default_equation ht decimal dot on hseg
  exact ⟨segValue s.params.segTable decimal dot on, exec_segEncode decimal dot on s,
    heq .a (by decide), heq .b (by decide), heq .c (by decide), heq .d (by decide), heq .e (by decide),
    heq .f (by decide), heq .g (by decide), segValue_default_segmentBit ht decimal dot on .dp⟩

end Sys2Proof.Machine
end

section
/-! PROOF of O36. From the byte of a chip to the segments its lines light (spec/40_segment_encoder.md R141, R149;
10_state.md R49, R50). -/

namespace Sys2Proof.Machine

theorem byteLevels_getElem? (v : Byte) {b : Nat} (hb : b < 8) :
    (byteLevels v)[b]? = some (Level.ofBool (v.getLsbD b)) := by
  match b with
  | 0 | 1 | 2 | 3 | 4 | 5 | 6 | 7 => rfl

theorem chipBits_getElem? (reg : List Level) (k : Nat) {b : Nat} (hb : b < 8) :
    (chipBits reg k)[b]? = reg[8 * k + b]? := by
  rw [chipBits, List.getElem?_take_of_lt hb, List.getElem?_drop]

/-- A chip whose storage register holds a byte drives each segment's line at the byte's bit for it
(40_segment_encoder.md R149). -/
theorem State.segmentLine_of_chipBits {s : State} {k : Nat} {v : Byte} (h : chipBits s.store k = byteLevels v)
    (seg : Segment) : s.segmentLine k seg = Level.ofBool (v.getLsbD (segmentBit seg)) := by
  have hb := segmentBit_lt seg
  rw [State.segmentLine, State.out, List.getD_eq_getElem?_getD, ← chipBits_getElem? s.store k hb, h,
    byteLevels_getElem? v hb]
  rfl

/-- A byte that SEG.ENCODE reports is its value. -/
theorem eq_segValue_of_exec {decimal v : Byte} {dot on : Bool} {s : State}
    (h : exec (.segEncode decimal dot on) s = .next { s with outcomes := s.outcomes ++ [.ok (.u8 v)] }) :
    v = segValue s.params.segTable decimal dot on := by
  rw [exec_segEncode] at h
  simpa using h.symm

/-- Settles O36: the transfer puts each byte on its chip (O27), whose lines are then at the byte's bits. -/
theorem latchedDigitLightsItsSegments : Obligations.LatchedDigitLightsItsSegments := by
  intro i op bytes s hform husable hrest hlength hfull hlat ht
  obtain ⟨t, u, hexec, hrun, hchips⟩ := cascadeByteOrder i op bytes s hform husable hrest hlength hfull
  refine ⟨t, u, hexec, hrun, fun k v decimal dot on hk hv henc seg => ?_⟩
  obtain ⟨-, hstore⟩ := hchips k v hk hv
  rw [State.segmentLine_of_chipBits (hstore hlat), eq_segValue_of_exec henc, segValue_default_segmentBit ht]

end Sys2Proof.Machine
end

section
/-! PROOF of O25. The history a push form makes, from its call to its return (spec/41_shift_register.md R172 to
R182). -/

namespace Sys2Proof.Machine

/-- Sixteen delays a byte after it has started, a push form has put its bytes on the wire and moved nothing but the
wires. -/
theorem exec_pushForm_pushTrace {i : Instr} {op : SrOp} {bytes : List Byte} {s : State}
    (hform : pushForm i = some (op, bytes)) (husable : s.srUsable) :
    ∃ (t w : State) (rests : List Bool), exec i s = .next t ∧
      srResumeTimes (16 * bytes.length) t = .next (w.afterPush op) ∧ rests.length = bytes.length ∧
      w.hist = s.hist ++ pushTrace s.params bytes rests ∧ (s.begin op bytes).sameButWires w := by
  have hexec := exec_pushForm_usable hform husable
  cases bytes with
  | nil => exact ⟨_, s.begin op [], [], hexec, rfl, rfl, by simp [pushTrace], by simp [State.sameButWires]⟩
  | cons v vs =>
    have same := (s.begin op (v :: vs)).dataSetup_sameButWires 0 7 v
    obtain ⟨hparams, -, hop, hbytes, -⟩ := id same
    obtain ⟨w, rests, evs, hrun, hlength, hhist, same', htrace⟩ :=
      srResumeTimes_bytes vs 0 ((s.begin op (v :: vs)).dataSetup 0 7 v) v rfl hop hbytes
    refine ⟨_, w, rests, hexec, hrun, hlength, ?_, State.sameButWires_trans same same'⟩
    rw [hparams, State.begin_params] at htrace
    rw [hhist, ← htrace, State.dataSetup_eq]
    simp

/-- Settles O25: the push puts its bytes on the wire, and its end adds the latch pulse and the return. -/
theorem pushFormCompletesWithItsWireTrace : Obligations.PushFormCompletesWithItsWireTrace := by
  intro i op bytes s hform husable
  obtain ⟨t, w, rests, hexec, hpush, hlength, hhist, same⟩ := exec_pushForm_pushTrace hform husable
  obtain ⟨hparams, hready, -, -, hfaults, hrefused, houtcomes, hhost, hbus⟩ := same
  obtain ⟨u, hend, hhist', houtcomes', hpc, hop, hbytes, hready', hparams', hfaults', hrefused', hhost', hbus', -⟩ :=
    srResumeTimes_afterPush op w
  refine ⟨t, u, rests, hexec, (srResumeTimes_add _ hpush).trans hend, hlength, ?_, ?_, hpc, hop, hbytes,
    hready'.trans (hready.trans husable.2), hparams'.trans hparams, hfaults'.trans hfaults,
    hrefused'.trans hrefused, hhost'.trans hhost, hbus'.trans hbus⟩
  · rw [hhist', hhist, hparams, State.begin_params]
  · rw [houtcomes', houtcomes, State.begin_outcomes]

end Sys2Proof.Machine
end

section
/-! PROOF of O29. The edges and delays of a push form's history (spec/41_shift_register.md R185). -/

namespace Sys2Proof.Machine

/-- A count that takes `c` for each bit, and nothing for what `DataRest()` adds, takes `8c` for each byte of a push. -/
theorem count_pushTrace {p : Params} {count : List Event → Nat} {c : Nat} (hnil : count [] = 0)
    (hbit : ∀ b es, count (bitTrace p b ++ es) = c + count es)
    (hrest : ∀ es, count (.lineSet .data false :: es) = count es) {bytes : List Byte} {rests : List Bool}
    (hlength : rests.length = bytes.length) : count (pushTrace p bytes rests) = c * (8 * bytes.length) := by
  have hbits (bits : List Bool) (es : List Event) :
      count (bits.flatMap (bitTrace p) ++ es) = c * bits.length + count es := by
    induction bits with
    | nil => simp
    | cons b bits ih => rw [List.flatMap_cons, List.append_assoc, hbit, ih, List.length_cons]; ring
  induction bytes generalizing rests with
  | nil => simpa [pushTrace] using hnil
  | cons v vs ih =>
    obtain ⟨r, rs, rfl⟩ := List.exists_cons_of_length_eq_add_one hlength
    have hbyte (es : List Event) : count (byteTrace p v r ++ es) = c * 8 + count es := by
      rw [byteTrace, List.append_assoc, hbits]
      cases r
      · rfl
      · exact congrArg _ (hrest es)
    rw [pushTrace, hbyte, ih (by simpa using hlength), List.length_cons]
    ring

section
variable (p : Params) {bytes : List Byte} {rests : List Bool} (hlength : rests.length = bytes.length)
include hlength

theorem edgeCount_clk_pushTrace (rising : Bool) :
    edgeCount .clk rising .zero (pushTrace p bytes rests) = 8 * bytes.length := by
  have hcount := count_pushTrace (p := p) (count := edgeCount .clk rising .zero) (c := 1) rfl
    (fun b es => by cases rising <;> simp [bitTrace, edgeCount, Level.ofBool]) (fun _ => rfl) hlength
  rw [hcount, one_mul]

theorem edgeCount_latch_pushTrace (rising : Bool) :
    edgeCount .latch rising .zero (pushTrace p bytes rests) = 0 := by
  have hcount := count_pushTrace (p := p) (count := edgeCount .latch rising .zero) (c := 0) rfl
    (fun b es => (Nat.zero_add _).symm) (fun _ => rfl) hlength
  rw [hcount, zero_mul]

theorem delayCount_pushTrace (kind : DelayKind) : delayCount kind (pushTrace p bytes rests) =
    if kind = .setup ∨ kind = .high then 8 * bytes.length else 0 := by
  have hcount := count_pushTrace (p := p) (count := delayCount kind)
    (c := if kind = .setup ∨ kind = .high then 1 else 0) rfl
    (fun b es => by cases kind <;> simp [bitTrace, delayCount, Nat.add_comm]) (fun _ => rfl) hlength
  rw [hcount, ite_mul, one_mul, zero_mul]

end

theorem edgeCount_clk_latchTrace (p : Params) (op : SrOp) (rising : Bool) :
    edgeCount .clk rising .zero (latchTrace p op) = 0 := by
  unfold latchTrace
  split <;> rfl

theorem edgeCount_latch_latchTrace (p : Params) (op : SrOp) (rising : Bool) :
    edgeCount .latch rising .zero (latchTrace p op) = if op.latches then 1 else 0 := by
  unfold latchTrace
  cases rising <;> split <;> rfl

theorem delayCount_latchTrace (p : Params) (op : SrOp) (kind : DelayKind) :
    delayCount kind (latchTrace p op) = if kind = .latch ∧ op.latches then 1 else 0 := by
  unfold latchTrace
  cases kind <;> split <;> simp_all [delayCount]

theorem delayCount_append (kind : DelayKind) (xs ys : List Event) :
    delayCount kind (xs ++ ys) = delayCount kind xs + delayCount kind ys := List.countP_append

/-- Settles O29: each bit of the push is one pulse on CLK with its two delays, and the latch part is one on LATCH. -/
theorem eventCountLaw : Obligations.EventCountLaw := by
  intro i op bytes s hform husable _
  obtain ⟨t, u, rests, hexec, hrun, hlength, hhist, -⟩ :=
    pushFormCompletesWithItsWireTrace i op bytes s hform husable
  refine ⟨t, u, pushTrace s.params bytes rests, latchTrace s.params op, hexec, hrun, by rw [hhist, List.append_assoc],
    ?_⟩
  simp [edgeCount_clk_pushTrace, edgeCount_latch_pushTrace, edgeCount_clk_latchTrace, edgeCount_latch_latchTrace,
    delayCount_append, delayCount_pushTrace, delayCount_latchTrace, hlength]

end Sys2Proof.Machine
end

section
/-! The routines of the SR unit over known levels, where no edge is lost and none is drawn (10_state.md R52, R58). -/

namespace Sys2Proof.Machine

theorem State.driveLow_eq (s : State) (l : Line) :
    s.driveLow l = { s with lines := s.lines.set l .zero, hist := s.hist ++ [.lineSet l false] } := rfl

/-- Of all writes of DATA only one of 1 over X takes a draw (10_state.md R58). -/
theorem edgeDraws_of_write (old : Level) (b : Bool) (k : Nat) :
    (if b then edgeDraws old k else k) = if old = .x ∧ b = true then k + 1 else k := by
  cases old <;> cases b <;> rfl

theorem State.srReturn_eq (s : State) : s.srReturn =
    { s with srPc := .idle, srOp := none, srBytes := [], outcomes := s.outcomes ++ [.ok .unit] } := rfl

/-- All that `DataRest()` does, with its draw. -/
theorem State.dataRest_draw (s : State) : ∃ r : Bool, s.dataRest =
    { s with
      lines := { s.lines with data := if r then .zero else s.lines.data }
      hist := s.hist ++ if r then [.lineSet .data false] else []
      draws := s.draws + 1 } := by
  rcases s.dataRest_cases with h | h
  · exact ⟨false, by simp [h]⟩
  · exact ⟨true, by simp [h]⟩

theorem State.dataRest_latch (s : State) : s.dataRest.lines.latch = s.lines.latch := by
  rcases s.dataRest_cases with h | h <;> rw [h]

theorem State.dataRest_data_known {s : State} (hdata : s.lines.data ≠ .x) : s.dataRest.lines.data ≠ .x := by
  rcases s.dataRest_cases with h | h <;> rw [h]
  · exact hdata
  · exact Level.ofBool_ne_x false

/-- Over a known level the setup of a bit takes no draw. -/
theorem State.dataSetup_of_known {s : State} (hdata : s.lines.data ≠ .x) (j : Nat) (i : Fin 8) (v : Byte) :
    s.dataSetup j i v =
      { s with
        lines := { s.lines with data := Level.ofBool (v.getLsbD i) }
        srPc := .sSetup j i
        hist := s.hist ++ [.lineSet .data (v.getLsbD i), .delay .setup s.params.tSetup] } := by
  simp [State.dataSetup_eq, edgeDraws_of_write, hdata]

/-- Over a LATCH at 0 the rising half of the latch pulse is an edge, and takes no draw. -/
theorem State.latchUp_of_zero {s : State} (hlatch : s.lines.latch = .zero) : s.latchUp =
    { s with
      lines := { s.lines with latch := .one }
      srPc := .sLatch
      hist := s.hist ++ [.lineSet .latch true, .delay .latch s.params.tLatch]
      store := s.shift } := by
  simp [State.latchUp_eq, hlatch]

theorem State.afterPush_of_latches {s : State} {op : SrOp} (hlat : op.latches = true) :
    s.afterPush op = s.latchUp := if_pos hlat

theorem State.afterPush_of_not_latches {s : State} {op : SrOp} (hlat : op.latches = false) :
    s.afterPush op = s.srReturn := by
  rw [State.afterPush, hlat]
  rfl

theorem State.byteEnd_of_some {s : State} {j : Nat} {v : Byte} {op : SrOp} (hv : s.srBytes[j + 1]? = some v) :
    s.byteEnd j op = s.dataRest.dataSetup (j + 1) 7 v := by
  simp [State.byteEnd, hv]

theorem State.byteEnd_of_none {s : State} {j : Nat} {op : SrOp} (hlast : s.srBytes[j + 1]? = none) :
    s.byteEnd j op = s.dataRest.afterPush op := by
  simp [State.byteEnd, hlast]

end Sys2Proof.Machine
end

section
/-! PROOF of O18 and O21. SR.INIT, and what comes before it has completed (spec/41_shift_register.md R170, R171). -/

namespace Sys2Proof.Machine

/-- On an idle unit SR.INIT starts, whether or not the unit is ready. -/
theorem exec_srInit_of_idle {s : State} (hpc : s.srPc = .idle) : exec .srInit s = .next s.initStart := by
  show srStart .srInit .init [] s = _
  simp [srStart, hpc]

/-- The end of the settle delay makes the unit ready and returns. -/
theorem State.srResume_initStart (s : State) : srResume s.initStart = .next (s.initStart.setReady true).srReturn := rfl

/-- Settles O18: SR.INIT's first run, the end of its one delay, and the concurrency check. -/
theorem srInitDrivesTheLinesLow : Obligations.SrInitDrivesTheLinesLow := by
  refine ⟨by decide, fun s => ⟨fun hpc => ?_, fun hpc => ?_⟩⟩
  · refine ⟨_, _, exec_srInit_of_idle hpc, s.initStart_eq, srResumeTimes_succ 0 s.srResume_initStart, ?_⟩
    simp [State.initStart_eq]
  · show srStart .srInit .init [] s = _
    rw [srStart, if_pos hpc]
    rfl

/-- Settles O21: an uninitialised unit faults, and stays uninitialised until SR.INIT's delay has ended. -/
theorem pushFormBeforeInitFaults : Obligations.PushFormBeforeInitFaults := by
  refine ⟨fun i op bytes s hform hpc hready => ?_, fun p => rfl, fun s t hpc hexec => ?_⟩
  · obtain ⟨hne, hexec⟩ := exec_pushForm hform s
    simp [hexec, srStart, hpc, hne, hready, State.faultNotInitialised, State.setNotInitialised, State.deliver]
  · obtain rfl : s.initStart = t := by simpa [exec_srInit_of_idle hpc] using hexec
    have hbusy : s.initStart.srPc ≠ .idle := by simp [State.initStart_eq]
    rw [State.cancelSr_eq _ hbusy]
    exact ⟨rfl, rfl, rfl, rfl⟩

end Sys2Proof.Machine
end

section
/-! PROOF of O19 and O20. The first run of a push form (spec/41_shift_register.md R172, R176, R177, R179). -/

namespace Sys2Proof.Machine

/-- Settles O19: the first run is the setup of bit 7, and only a write of 1 over X takes a draw. -/
theorem pushFormStartsWithBitSeven : Obligations.PushFormStartsWithBitSeven := by
  intro i op v vs s hform husable
  rw [exec_pushForm_usable hform husable, State.pushStart, State.dataSetup_eq, edgeDraws_of_write]
  rfl

/-- Of the push forms with no byte to push only SR.PUSH_BYTES has no latch (41_shift_register.md R176 to R179). -/
theorem latches_of_pushForm_nil {i : Instr} {op : SrOp} (hform : pushForm i = some (op, [])) (hne : op ≠ .pushBytes) :
    op.latches = true := by
  cases i <;> cases hform
  case srPushBytes => exact absurd rfl hne
  case srTransfer | srPushBytesAndTransfer => rfl

/-- Settles O20: with no byte to push, what follows the push comes at once. -/
theorem emptyPushFormIsABareLatchOrNothing : Obligations.EmptyPushFormIsABareLatchOrNothing := by
  intro s husable
  obtain ⟨hpc, -⟩ := id husable
  refine ⟨?_, fun hlatch i op hform hne => ?_⟩
  · rw [exec_pushForm_usable rfl husable, State.pushStart, State.afterPush_of_not_latches rfl, State.srReturn_eq]
    simp [State.begin, hpc]
  · have hlow : (s.begin op []).lines.latch = .zero := hlatch
    rw [exec_pushForm_usable hform husable, State.pushStart,
      State.afterPush_of_latches (latches_of_pushForm_nil hform hne), State.latchUp_of_zero hlow]
    rfl

end Sys2Proof.Machine
end

section
/-! PROOF of O23. The rows of the sequencer's table (spec/41_shift_register.md R183). -/

namespace Sys2Proof.Machine

/-- Settles O23: each row of the table is one case of `srResume`, and `DataRest()` is one draw. -/
theorem sequencerTransitions : Obligations.SequencerTransitions := by
  refine ⟨fun s => srResume_idle, fun s hpc => ?_, fun s j i hpc hclk => ?_,
    fun s j i v op hpc hv hop hknown => ?_, fun s hpc => ?_⟩
  · simp only [srResume, hpc]
    rfl
  · simp only [srResume, hpc, State.clockUp_eq]
    simp [hclk, shiftedIn]
  · have hend : srResume s = .next (s.bitEnd j i v op) := by simp [srResume, hpc, hv, hop]
    obtain ⟨-, -, hdata⟩ := hknown
    rw [hend]
    refine ⟨fun hi => ?_, fun hi => ?_⟩
    · have hpred : (i - 1).val = i.val - 1 := by simpa using Fin.sub_val_of_le (show (1 : Fin 8) ≤ i from hi)
      rw [State.bitEnd, if_pos hi, State.dataSetup_of_known (s := s.driveLow .clk) hdata, hpred]
      simp [State.driveLow_eq]
    · obtain ⟨r, hr⟩ := (s.driveLow .clk).dataRest_draw
      rw [State.bitEnd, if_neg (by omega)]
      refine ⟨r, fun v' hv' => ?_, fun hlast hlat => ?_, fun hlast hlat hlatch => ?_⟩
      · have hrest : (s.driveLow .clk).dataRest.lines.data ≠ .x := State.dataRest_data_known hdata
        rw [State.byteEnd_of_some (s := s.driveLow .clk) hv', State.dataSetup_of_known hrest, hr]
        simp [State.driveLow_eq]
      · rw [State.byteEnd_of_none (s := s.driveLow .clk) hlast, State.afterPush_of_not_latches hlat,
          State.srReturn_eq, hr]
        simp [State.driveLow_eq]
      · have hrest : (s.driveLow .clk).dataRest.lines.latch = .zero := (State.dataRest_latch _).trans hlatch
        rw [State.byteEnd_of_none (s := s.driveLow .clk) hlast, State.afterPush_of_latches hlat,
          State.latchUp_of_zero hrest, hr]
        simp [State.driveLow_eq]
  · simp only [srResume, hpc]
    rfl

end Sys2Proof.Machine
end

section
/-! PROOF of O26 and O28. Where DATA and the chain are after a push form (spec/41_shift_register.md R172, R173,
R186). -/

namespace Sys2Proof.Machine

/-- What holds at the start and is kept at the end of every delay holds after any number of delays. -/
theorem srResumeTimes_keeps {P : State → Prop} (hkeep : ∀ s t, P s → srResume s = .next t → P t) {k : Nat}
    {s u : State} (h : P s) (hrun : srResumeTimes k s = .next u) : P u := by
  induction k generalizing s with
  | zero =>
    cases hrun
    exact h
  | succ k ih =>
    rw [srResumeTimes] at hrun
    split at hrun
    case h_1 t hst => exact ih (hkeep s t h hst) hrun
    all_goals cases hrun

/-- Where DATA may be once `bytes` have been pushed from a DATA at `d` (41_shift_register.md R173). -/
def dataRestsAt (bytes : List Byte) (d data : Level) : Prop :=
  (data = .zero ∧ bytes ≠ []) ∨ data = (bytes.getLast?.map fun v => Level.ofBool (v.getLsbD 0)).getD d

/-- Where DATA is at each position of a push of `bytes` that found it at `d`. -/
inductive State.DataFits (bytes : List Byte) (d : Level) (s : State) : Prop
  | atBit {j : Nat} {i : Fin 8} {v : Byte} (hpc : s.srPc = .sSetup j i ∨ s.srPc = .sHigh j i)
      (hbytes : s.srBytes = bytes) (hv : bytes[j]? = some v) (hdata : s.lines.data = Level.ofBool (v.getLsbD i))
  | ended (hpc : s.srPc = .sLatch ∨ s.srPc = .idle) (hdata : dataRestsAt bytes d s.lines.data)

section
variable {bytes : List Byte} {d : Level} {s : State}

theorem State.DataFits.dataSetup {j : Nat} {v : Byte} (i : Fin 8) (hbytes : s.srBytes = bytes)
    (hv : bytes[j]? = some v) : (s.dataSetup j i v).DataFits bytes d := by
  rw [State.dataSetup_eq]
  exact .atBit (.inl rfl) hbytes hv rfl

theorem State.DataFits.afterPush (op : SrOp) (hdata : dataRestsAt bytes d s.lines.data) :
    (s.afterPush op).DataFits bytes d := by
  rcases s.afterPush_cases op with ⟨-, ha⟩ | ⟨-, ha⟩ <;> rw [ha]
  · rw [State.latchUp_eq]
    exact .ended (.inl rfl) hdata
  · exact .ended (.inr rfl) hdata

/-- `DataRest()` leaves DATA at bit 0 of the byte, or at 0. -/
theorem dataRestsAt_dataRest {j : Nat} {v : Byte} (hv : bytes[j]? = some v) (hlast : bytes[j + 1]? = none)
    (hdata : s.lines.data = Level.ofBool (v.getLsbD 0)) : dataRestsAt bytes d s.dataRest.lines.data := by
  obtain ⟨hj, -⟩ := List.getElem?_eq_some_iff.mp hv
  have hlength : bytes.length - 1 = j := by
    have := List.getElem?_eq_none_iff.mp hlast
    omega
  rcases s.dataRest_cases with h | h <;> rw [h]
  · right
    rw [List.getLast?_eq_getElem?, hlength, hv]
    exact hdata
  · exact .inl ⟨rfl, List.ne_nil_of_length_pos (by omega)⟩

theorem State.DataFits.bitEnd {j : Nat} {v : Byte} (i : Fin 8) (op : SrOp) (hbytes : s.srBytes = bytes)
    (hv : bytes[j]? = some v) (hdata : s.lines.data = Level.ofBool (v.getLsbD i)) :
    (s.bitEnd j i v op).DataFits bytes d := by
  obtain ⟨-, -, -, hrestBytes, -⟩ := (s.driveLow .clk).dataRest_sameButWires
  unfold State.bitEnd
  split
  case isTrue => exact .dataSetup (i - 1) hbytes hv
  case isFalse hi =>
    obtain rfl : i = 0 := by omega
    unfold State.byteEnd
    split
    case h_1 v' hv' => exact .dataSetup 7 (hrestBytes.trans hbytes) (hbytes ▸ hv')
    case h_2 hlast => exact .afterPush op (dataRestsAt_dataRest hv (hbytes ▸ hlast) hdata)

theorem State.DataFits.pushStart (op : SrOp) (bytes : List Byte) :
    (s.pushStart op bytes).DataFits bytes s.lines.data := by
  cases bytes with
  | nil => exact .afterPush op (.inr rfl)
  | cons v vs => exact .dataSetup 7 rfl rfl

theorem State.DataFits.srResume {t : State} (h : s.DataFits bytes d) (hst : srResume s = .next t) :
    t.DataFits bytes d := by
  cases h with
  | @atBit j i v hpc hbytes hv hdata =>
    rcases hpc with hpc | hpc
    · obtain rfl : (s.driveHigh .clk).suspend .high (.sHigh j i) = t := by simpa [Machine.srResume, hpc] using hst
      rw [State.clockUp_eq]
      exact .atBit (.inr rfl) hbytes hv hdata
    · cases hop : s.srOp with
      | none => simp [Machine.srResume, hpc, hop] at hst
      | some op =>
        obtain rfl : s.bitEnd j i v op = t := by simpa [Machine.srResume, hpc, hop, hbytes, hv] using hst
        exact .bitEnd i op hbytes hv hdata
  | ended hpc hdata =>
    rcases hpc with hpc | hpc
    · obtain rfl : (s.driveLow .latch).srReturn = t := by simpa [Machine.srResume, hpc] using hst
      exact .ended (.inr rfl) hdata
    · obtain rfl : s = t := by simpa [Machine.srResume, hpc] using hst
      exact .ended (.inr hpc) hdata

theorem State.DataFits.of_idle (h : s.DataFits bytes d) (hpc : s.srPc = .idle) :
    dataRestsAt bytes d s.lines.data := by
  cases h with
  | atBit hbit => rcases hbit with hbit | hbit <;> simp [hpc] at hbit
  | ended _ hdata => exact hdata

end

/-- Settles O26: the chain as the push moves it, and DATA as its last bit and the draw after it leave it. -/
theorem pushFormMovesTheChain : Obligations.PushFormMovesTheChain := by
  intro i op bytes s hform husable hrest hlength
  have hexec := exec_pushForm_usable hform husable
  obtain ⟨t, u, hexec', hrun, hend, hshift, hstore⟩ := exec_pushForm_moves_chain hform husable hrest hlength
  obtain ⟨t', u', -, hexec'', hrun', -, -, -, hpc, -⟩ := pushFormCompletesWithItsWireTrace i op bytes s hform husable
  obtain rfl : s.pushStart op bytes = t := by simpa [hexec] using hexec'
  obtain rfl : s.pushStart op bytes = t' := by simpa [hexec] using hexec''
  obtain rfl : u = u' := by simpa [hrun] using hrun'
  have hfits := srResumeTimes_keeps (P := State.DataFits bytes s.lines.data) (fun _ _ h hst => h.srResume hst)
    (State.DataFits.pushStart op bytes) hrun
  exact ⟨_, u, hexec, hrun, hend, hshift, hstore, hfits.of_idle hpc⟩

/-- One byte fills the shift stage of one chip. -/
theorem shiftedBits_one (v : Byte) (shift : List Level) : shiftedBits 1 (serialBits [v]) shift = byteLevels v := by
  rw [shiftedBits, serialBits_cons]
  exact List.take_left' rfl

/-- Settles O28: the push fills the one chip's shift stage, and the transfer forms copy it. -/
theorem singleChipEndsWithTheByte : Obligations.SingleChipEndsWithTheByte := by
  intro i op v s hform husable hrest hone hlength
  obtain ⟨t, u, hexec, hrun, -, hshift, hstore⟩ :=
    exec_pushForm_moves_chain hform husable hrest (hlength.trans (by rw [hone]))
  rw [hone, shiftedBits_one] at hshift
  exact ⟨t, u, hexec, hrun, hshift, by rw [hstore, hshift]⟩

end Sys2Proof.Machine
end

section
/-! PROOF of O30. When STORE changes (spec/41_shift_register.md R184). -/

namespace Sys2Proof.Machine

/-! ## In any step -/

/-- If STORE changes from `s` to `t`, LATCH was not at 1, has been driven to 1, and STORE is SHIFT. -/
def State.storesByLatch (s t : State) : Prop :=
  t.store ≠ s.store → s.lines.latch ≠ .one ∧ t.lines.latch = .one ∧ t.store = t.shift ∧
    ∃ pre post : List Event, t.hist = s.hist ++ pre ++ .lineSet .latch true :: post

/-- From `s` to `t` neither STORE nor LATCH changes, and the history only grows. -/
def State.keepsStore (s t : State) : Prop :=
  t.store = s.store ∧ t.lines.latch = s.lines.latch ∧ s.hist <+: t.hist

section
variable {s t u : State}

theorem State.storesByLatch_of_store_eq (h : t.store = s.store) : s.storesByLatch t := fun hne => absurd h hne

theorem State.keepsStore.then (h : s.keepsStore t) (h' : t.storesByLatch u) : s.storesByLatch u := by
  obtain ⟨hstore, hlatch, evs, hhist⟩ := h
  intro hne
  obtain ⟨hrise, hone, hcopy, pre, post, hpulse⟩ := h' (hstore ▸ hne)
  exact ⟨hlatch ▸ hrise, hone, hcopy, evs ++ pre, post, by rw [hpulse, ← hhist, List.append_assoc s.hist]⟩

theorem State.dataRest_keepsStore (s : State) : s.keepsStore s.dataRest := by
  rcases s.dataRest_cases with h | h <;> simp [h, State.keepsStore]

theorem State.dataSetup_store (s : State) (j : Nat) (i : Fin 8) (v : Byte) : (s.dataSetup j i v).store = s.store := by
  rw [State.dataSetup_eq]

/-- A rising LATCH copies SHIFT, and one that was at 1 does not rise. -/
theorem State.latchUp_storesByLatch (s : State) : s.storesByLatch s.latchUp := by
  rw [State.latchUp_eq]
  cases hrise : isRise s.lines.latch s.draws with
  | false => exact State.storesByLatch_of_store_eq rfl
  | true =>
    have hone : s.lines.latch ≠ .one := fun hone => by simp [hone] at hrise
    exact fun _ => ⟨hone, rfl, rfl, [], [.delay .latch s.params.tLatch], by simp⟩

theorem State.afterPush_storesByLatch (s : State) (op : SrOp) : s.storesByLatch (s.afterPush op) := by
  rcases s.afterPush_cases op with ⟨-, h⟩ | ⟨-, h⟩ <;> rw [h]
  · exact s.latchUp_storesByLatch
  · exact State.storesByLatch_of_store_eq rfl

theorem State.byteEnd_storesByLatch (s : State) (j : Nat) (op : SrOp) : s.storesByLatch (s.byteEnd j op) := by
  unfold State.byteEnd
  split
  · exact s.dataRest_keepsStore.then (State.storesByLatch_of_store_eq (State.dataSetup_store _ _ _ _))
  · exact s.dataRest_keepsStore.then (State.afterPush_storesByLatch _ op)

theorem State.bitEnd_storesByLatch (s : State) (j : Nat) (i : Fin 8) (v : Byte) (op : SrOp) :
    s.storesByLatch (s.bitEnd j i v op) := by
  have hlow : s.keepsStore (s.driveLow .clk) := by simp [State.keepsStore]
  unfold State.bitEnd
  split
  · exact hlow.then (State.storesByLatch_of_store_eq (State.dataSetup_store _ _ _ _))
  · exact hlow.then (State.byteEnd_storesByLatch _ j op)

theorem State.pushStart_storesByLatch (s : State) (op : SrOp) (bytes : List Byte) :
    s.storesByLatch (s.pushStart op bytes) := by
  have hbegin : s.keepsStore (s.begin op bytes) := by simp [State.keepsStore]
  cases bytes with
  | nil => exact hbegin.then (State.afterPush_storesByLatch _ op)
  | cons v vs => exact hbegin.then (State.storesByLatch_of_store_eq (State.dataSetup_store _ 0 7 v))

theorem srResume_storesByLatch (h : srResume s = .next t) : s.storesByLatch t := by
  rcases srResume_cases s h with ⟨-, ht⟩ | ⟨-, ht⟩ | ⟨j, i, -, ht⟩ | ⟨j, i, v, op, -, -, -, ht⟩ |
    ⟨j, i, -, -, ht⟩ | ⟨-, ht⟩ <;> cases ht
  · exact State.storesByLatch_of_store_eq rfl
  · exact State.storesByLatch_of_store_eq rfl
  · exact State.storesByLatch_of_store_eq (by rw [State.clockUp_eq])
  · exact s.bitEnd_storesByLatch j i v op
  · exact State.storesByLatch_of_store_eq rfl

theorem srStart_storesByLatch {i : Instr} {op : SrOp} {bytes : List Byte} (h : srStart i op bytes s = .next t) :
    s.storesByLatch t := by
  rcases srStart_cases s h with ⟨-, ht⟩ | ⟨-, -, ht⟩ | ⟨-, -, -, ht⟩ | ⟨-, -, -, ht⟩ <;> cases ht
  · exact State.storesByLatch_of_store_eq rfl
  · exact State.storesByLatch_of_store_eq (by rw [State.initStart_eq])
  · exact State.storesByLatch_of_store_eq rfl
  · exact s.pushStart_storesByLatch op bytes

theorem exec_storesByLatch {i : Instr} (h : exec i s = .next t) : s.storesByLatch t := by
  cases hi : isSr i with
  | true =>
    obtain ⟨op, bytes, he⟩ := exec_isSr hi s
    exact srStart_storesByLatch (he ▸ h)
  | false =>
    obtain ⟨-, -, -, -, -, -, -, hstore, -⟩ := exec_sameDriver hi h
    exact State.storesByLatch_of_store_eq hstore

theorem State.cancelSr_store (s : State) : s.cancelSr.store = s.store := by
  unfold State.cancelSr
  split <;> rfl

theorem step_storesByLatch (h : step s = .next t) : s.storesByLatch t := by
  have hpop : s.keepsStore s.popHost := by simp [State.keepsStore]
  rcases step_cases h with ⟨w, oob, rest, i, -, -, ht⟩ | ⟨w, oob, rest, why, -, -, ht⟩ | ⟨rest, -, ht⟩ |
    ⟨rest, -, ht⟩ | ⟨rest, -, -, ht⟩ | ⟨rest, -, -, ht⟩ | ⟨-, ht⟩
  · exact hpop.then (exec_storesByLatch ht.symm)
  · cases ht
    exact State.storesByLatch_of_store_eq rfl
  · cases ht
    exact State.storesByLatch_of_store_eq (State.cancelSr_store _)
  · exact hpop.then (srResume_storesByLatch ht.symm)
  · cases ht
    exact State.storesByLatch_of_store_eq rfl
  · exact srResume_storesByLatch ht.symm
  · exact srResume_storesByLatch ht.symm

end

/-! ## In a push form -/

section
variable {c s t : State} {op : SrOp}

/-- The end of a bit that is not the push's last leaves STORE as it was. -/
theorem State.bitEnd_store (s : State) {j : Nat} {i : Fin 8} (hmore : 0 < i.val ∨ j + 1 < s.srBytes.length) (v : Byte)
    (op : SrOp) : (s.bitEnd j i v op).store = s.store := by
  unfold State.bitEnd
  split
  case isTrue => exact State.dataSetup_store _ _ _ _
  case isFalse hi =>
    have hv : (s.driveLow .clk).srBytes[j + 1]? = some _ := List.getElem?_eq_getElem (hmore.resolve_left hi)
    obtain ⟨hrest, -⟩ := (s.driveLow .clk).dataRest_keepsStore
    rw [State.byteEnd_of_some hv, State.dataSetup_store, hrest]
    rfl

/-- As long as a delay of the push is to come after it, the end of a delay leaves STORE as it was. -/
theorem State.ReturnsIn.srResume_store {k : Nat} (hop : c.srOp = some op) (h : c.ReturnsIn op (k + 1) s)
    (hk : op.latchDelays < k) (hst : Machine.srResume s = .next t) : t.store = s.store := by
  cases h with
  | atLatch => omega
  | @atSetup _ j _ _ i same hpc =>
    obtain rfl : (s.driveHigh .clk).suspend .high (.sHigh j i) = t := by simpa [Machine.srResume, hpc] using hst
    rw [State.clockUp_eq]
  | @atHigh _ j n _ i same hpc hj hleft =>
    obtain ⟨-, -, hop', hbytes, -⟩ := same
    obtain ⟨v, hv⟩ : ∃ v, s.srBytes[j]? = some v := ⟨_, List.getElem?_eq_getElem (by rw [hbytes]; omega)⟩
    obtain rfl : s.bitEnd j i v op = t := by simpa [Machine.srResume, hpc, hv, hop', hop] using hst
    exact s.bitEnd_store (by rw [hbytes]; omega) v op

/-- The end of a push's delays leaves STORE as it was, up to the last of them. -/
theorem State.ReturnsIn.srResumeTimes_store {k r : Nat} {u : State} (hop : c.srOp = some op) (h : c.ReturnsIn op r s)
    (hk : op.latchDelays + k < r) (hrun : srResumeTimes k s = .next u) : u.store = s.store := by
  induction k generalizing s r with
  | zero =>
    cases hrun
    rfl
  | succ k ih =>
    obtain ⟨r, rfl⟩ : ∃ r', r = r' + 1 := ⟨r - 1, by omega⟩
    obtain ⟨t, hst, hnext⟩ := h.srResume hop
    rw [srResumeTimes_succ k hst] at hrun
    exact (ih hnext (by omega) hrun).trans (h.srResume_store hop (by omega) hst)

end

/-- Settles O30: of all routines only the rising half of a latch pulse writes STORE, and it comes after the push. -/
theorem atomicVisibleUpdate : Obligations.AtomicVisibleUpdate := by
  refine ⟨fun s t => step_storesByLatch, fun i op bytes s t u k hform husable hexec hk hrun => ?_⟩
  obtain rfl : s.pushStart op bytes = t := by simpa [exec_pushForm_usable hform husable] using hexec
  have hcount := State.ReturnsIn.pushStart s op bytes
  have hpush := hcount.srResumeTimes_store rfl (by rw [delaysOf_eq]; omega) hrun
  cases bytes with
  | nil => simp at hk
  | cons v vs => exact hpush.trans (State.dataSetup_store _ 0 7 v)

end Sys2Proof.Machine
end

section
/-! PROOF of O13, O14 and O15. Bytes as two decimal digits (spec/42_rtc.md R221 to R225). -/

namespace Sys2Proof

/-! ## Masks and nibbles of a byte -/

/-- A mask of all the low bits that a number needs keeps the number. -/
theorem Byte.and_lowMask {v m : Byte} {k : Nat} (hm : m.toNat = 2 ^ k - 1) (hv : v.toNat < 2 ^ k) : v &&& m = v :=
  BitVec.eq_of_toNat_eq (by rw [BitVec.toNat_and, hm, Nat.and_two_pow_sub_one_of_lt_two_pow hv])

/-- Where one mask keeps a byte, a mask apart from it finds only 0. -/
theorem Byte.and_eq_zero_of_and_eq_self {v m m' : Byte} (hv : v &&& m = v) (hm : m &&& m' = 0#8) : v &&& m' = 0#8 := by
  rw [← hv, BitVec.and_assoc, hm, BitVec.and_zero]

theorem Byte.toNat_highNibble (b : Byte) : (b >>> 4).toNat = b.toNat / 16 := by
  simp [Nat.shiftRight_eq_div_pow]

theorem Byte.toNat_lowNibble (b : Byte) : (b &&& 0x0F#8).toNat = b.toNat % 16 := by
  simpa using Nat.and_two_pow_sub_one_eq_mod b.toNat 4

/-- The shift alone takes the low nibble away. -/
theorem Byte.highNibble_masked (b : Byte) : (b &&& 0xF0#8) >>> 4 = b >>> 4 := by
  rw [BitVec.ushiftRight_and_distrib]
  exact Byte.and_lowMask (k := 4) rfl (by rw [Byte.toNat_highNibble]; omega)

end Sys2Proof

namespace Sys2Proof.Machine

/-! ## The two conversions as arithmetic -/

/-- BCD.DEC in the nibbles of its byte (R221). -/
theorem bcdDecode_eq_nibbles (b : Byte) :
    bcdDecode b = ((b &&& 0xF0#8) >>> 4).toNat * 10 + (b &&& 0x0F#8).toNat := by
  simp [bcdDecode]

theorem bcdDecode_eq (b : Byte) : bcdDecode b = b.toNat / 16 * 10 + b.toNat % 16 := by
  rw [bcdDecode_eq_nibbles, Byte.highNibble_masked, Byte.toNat_highNibble, Byte.toNat_lowNibble]

/-- BCD.ENC in the digits of its number (R222). -/
theorem bcdEncode_eq (n : Nat) : bcdEncode n = BitVec.ofNat 8 (n / 10 * 16 + n % 10) := by
  rw [bcdEncode, ← Nat.shiftLeft_add_eq_or_of_lt (by omega), Nat.shiftLeft_eq]

theorem bcdEncode_toNat {n : Nat} (h : n ≤ 99) : (bcdEncode n).toNat = n / 10 * 16 + n % 10 := by
  rw [bcdEncode_eq, BitVec.toNat_ofNat]
  omega

theorem bcdDecode_le (b : Byte) : bcdDecode b ≤ 165 := by
  rw [bcdDecode_eq]
  omega

theorem bcdDecode_bcdEncode {n : Nat} (h : n ≤ 99) : bcdDecode (bcdEncode n) = n := by
  rw [bcdDecode_eq, bcdEncode_toNat h]
  omega

/-- A valid BCD byte decodes to at most 99, and its number encodes to it again (R223). -/
theorem bcdEncode_bcdDecode {b : Byte} (hhi : (b >>> 4).toNat ≤ 9) (hlo : (b &&& 0x0F#8).toNat ≤ 9) :
    bcdDecode b ≤ 99 ∧ bcdEncode (bcdDecode b) = b := by
  rw [Byte.toNat_highNibble] at hhi
  rw [Byte.toNat_lowNibble] at hlo
  have hle : bcdDecode b ≤ 99 := by rw [bcdDecode_eq]; omega
  refine ⟨hle, BitVec.eq_of_toNat_eq ?_⟩
  rw [bcdEncode_toNat hle, bcdDecode_eq]
  omega

/-- What BCD.DEC returns fits its result byte. -/
theorem toNat_ofNat_bcdDecode (b : Byte) : (BitVec.ofNat 8 (bcdDecode b)).toNat = bcdDecode b :=
  Nat.mod_eq_of_lt ((bcdDecode_le b).trans_lt (by decide))

/-! ## What the two operations do -/

theorem exec_bcdDec (b : Byte) (s : State) : exec (.bcdDec b) s =
    .next { s with outcomes := s.outcomes ++ [.ok (.u8 (BitVec.ofNat 8 (bcdDecode b)))] } := rfl

theorem exec_bcdEnc_of_le {n : Byte} (h : n.toNat ≤ 99) (s : State) : exec (.bcdEnc n) s =
    .next { s with outcomes := s.outcomes ++ [.ok (.u8 (bcdEncode n.toNat))] } :=
  congrArg Host.Outcome.next (if_pos (decide_eq_true h))

theorem exec_bcdEnc_of_gt {n : Byte} (h : 99 < n.toNat) (s : State) : exec (.bcdEnc n) s =
    .next { s with
      refused := true
      outcomes := s.outcomes ++ [.refusedOperand (Instr.bcdEnc n).word (.bcdRange n)] } :=
  congrArg Host.Outcome.next (if_neg (by simpa [bcdInRange] using h))

/-- Settles O13: the number fits the byte that reports it. -/
theorem bcdDecReportsTheNumber : Obligations.BcdDecReportsTheNumber := by
  refine fun b s => ⟨decodeOfEncodeIsTheInstruction (.bcdDec b), BitVec.ofNat 8 (bcdDecode b), ?_, ?_,
    exec_bcdDec b s⟩
  · rw [toNat_ofNat_bcdDecode, bcdDecode_eq_nibbles]
  · rw [toNat_ofNat_bcdDecode]
    exact bcdDecode_le b

/-- Settles O14, by the two digits of a number of at most 99. -/
theorem bcdEncReportsTheByteOrRefuses : Obligations.BcdEncReportsTheByteOrRefuses := by
  refine fun n s => ⟨decodeOfEncodeIsTheInstruction (.bcdEnc n), fun h => ?_, fun h => exec_bcdEnc_of_gt h s⟩
  have hv := bcdEncode_toNat h
  refine ⟨bcdEncode n.toNat, hv, ?_, ?_, exec_bcdEnc_of_le h s⟩
  · rw [Byte.toNat_highNibble, hv]
    omega
  · rw [Byte.toNat_lowNibble, hv]
    omega

/-- Settles O15, by the two round trips of the conversions. -/
theorem bcdRoundTrips : Obligations.BcdRoundTrips := by
  refine ⟨fun n s h => ⟨bcdEncode n.toNat, exec_bcdEnc_of_le h s, ?_⟩,
    fun b s hhi hlo => ⟨BitVec.ofNat 8 (bcdDecode b), exec_bcdDec b s, ?_⟩⟩
  · rw [exec_bcdDec, bcdDecode_bcdEncode h, BitVec.ofNat_toNat, BitVec.setWidth_eq]
  · obtain ⟨hle, hb⟩ := bcdEncode_bcdDecode hhi hlo
    have hv := toNat_ofNat_bcdDecode b
    rw [exec_bcdEnc_of_le (hv.trans_le hle), hv, hb]

end Sys2Proof.Machine
end

section
/-! PROOF of O39, O40, O44 and O45. The four RTC reads: one transaction each, and what they make of its bytes
(spec/42_rtc.md R226, R227, R230, R240, R241, R245, R246). -/

namespace Sys2Proof.Machine

theorem exec_rtcInit (s : State) : exec .rtcInit s =
    .next ((s.memRead regTime timeReadLen).deliver (probeOutcome (s.readReply timeReadLen))) := rfl

theorem exec_rtcGetDatetime (s : State) : exec .rtcGetDatetime s =
    .next ((s.memRead regTime timeReadLen).deliver
      (readOutcome (fun b => .dateTime (decodeTime s.params b)) (s.readReply timeReadLen))) := rfl

theorem exec_rtcGetTemperature (s : State) : exec .rtcGetTemperature s =
    .next ((s.memRead regTemp tempReadLen).deliver
      (readOutcome (fun b => .quarterDegrees (decodeTemperature b)) (s.readReply tempReadLen))) := rfl

theorem exec_rtcIsBusy (s : State) : exec .rtcIsBusy s =
    .next ((s.memRead regStatus 1).deliver
      (readOutcome (fun b => .bool (busyFlag (byteAt b 0))) (s.readReply 1))) := rfl

/-- An operation that is one read and its report makes that one transaction, and changes nothing else. -/
theorem exec_read_frame {i : Instr} {s : State} {reg : Byte} {n : Nat} {o : OpOutcome}
    (h : exec i s = .next ((s.memRead reg n).deliver o)) : ∃ t, exec i s = .next t ∧
      t.hist = s.hist ++ [.busWR 0x68#7 [reg] n (s.readReply n)] ∧ t.outcomes = s.outcomes ++ [o] ∧
      t.refused = s.refused ∧ s.sameDriver t :=
  ⟨_, h, rfl, rfl, rfl, s.sameDriver_memRead_deliver reg n o⟩

/-- The same where the oracle's reply is known, for an operation that hands a bus error on. -/
theorem exec_read_frame_of_reply {i : Instr} {s : State} {reg : Byte} {n : Nat} {f : List Byte → Result}
    {r : ReadReply} (h : exec i s = .next ((s.memRead reg n).deliver (readOutcome f (s.readReply n))))
    (hr : s.readReply n = r) : ∃ t, exec i s = .next t ∧
      t.hist = s.hist ++ [.busWR 0x68#7 [reg] n r] ∧ t.outcomes = s.outcomes ++ [readOutcome f r] ∧
      t.refused = s.refused ∧ s.sameDriver t := by
  subst hr
  exact exec_read_frame h

/-- Settles O39: the probe reports whether its one read succeeded. -/
theorem rtcInitProbesOnce : Obligations.RtcInitProbesOnce :=
  ⟨decodeOfEncodeIsTheInstruction .rtcInit, fun s => exec_read_frame (exec_rtcInit s)⟩

/-- A field of the time block in the nibbles of its masked byte (R226). -/
theorem decField_eq_nibbles (b mask : Byte) :
    decField b mask = (((b &&& mask) &&& 0xF0#8) >>> 4).toNat * 10 + ((b &&& mask) &&& 0x0F#8).toNat :=
  bcdDecode_eq_nibbles (b &&& mask)

/-- Settles O40: the fields stand where the layout's index table puts them. -/
theorem getDatetimeDecodesTheBlock : Obligations.GetDatetimeDecodesTheBlock := by
  refine ⟨decodeOfEncodeIsTheInstruction .rtcGetDatetime, fun s b0 b1 b2 b3 b4 b5 b6 hr => ?_,
    fun s e hr => exec_read_frame_of_reply (exec_rtcGetDatetime s) hr⟩
  obtain ⟨t, ht, hhist, hout, hframe⟩ := exec_read_frame_of_reply (exec_rtcGetDatetime s) hr
  refine ⟨t, ht, hhist, ?_, hframe⟩
  rw [hout]
  cases hl : s.params.layout <;>
    simp [readOutcome, decodeTime, hl, fieldIndex, byteAt, epoch, decField_eq_nibbles]

/-- The count of quarter degrees: the upper byte, signed, in whole degrees, and the lower byte's top two bits (R245). -/
theorem decodeTemperature_eq (hi lo : Byte) : decodeTemperature [hi, lo] =
    (if hi.toNat < 128 then (hi.toNat : Int) else hi.toNat - 256) * 4 + (lo.toNat / 64 : Nat) := by
  have hlo : (lo.extractLsb' 6 2).toNat = lo.toNat / 64 := by
    rw [BitVec.extractLsb'_toNat, Nat.shiftRight_eq_div_pow]
    omega
  have hhi : hi.toInt = if hi.toNat < 128 then (hi.toNat : Int) else hi.toNat - 256 := by
    rw [BitVec.toInt_eq_toNat_cond]
    split <;> split <;> omega
  calc decodeTemperature [hi, lo] = 2 ^ 2 * hi.toInt + (lo.extractLsb' 6 2).toNat := BitVec.toInt_append
    _ = _ := by rw [hhi, hlo]; omega

/-- Settles O44, by the value of the 10-bit pattern. -/
theorem getTemperatureIsTenBitSigned : Obligations.GetTemperatureIsTenBitSigned := by
  refine ⟨decodeOfEncodeIsTheInstruction .rtcGetTemperature, fun s hi lo hr => ?_,
    fun s e hr => exec_read_frame_of_reply (exec_rtcGetTemperature s) hr⟩
  have hq := decodeTemperature_eq hi lo
  obtain ⟨t, hread⟩ := exec_read_frame_of_reply (exec_rtcGetTemperature s) hr
  obtain ⟨hlow, hhigh⟩ : -512 ≤ decodeTemperature [hi, lo] ∧ decodeTemperature [hi, lo] ≤ 511 := by
    rw [hq]
    split <;> omega
  exact ⟨decodeTemperature [hi, lo], t, hq, hlow, hhigh, hread⟩

/-- The busy flag is bit 2 of the status byte's number (R246). -/
theorem busyFlag_eq (st : Byte) : busyFlag st = decide (st.toNat / 4 % 2 = 1) :=
  (st.testBit_toNat).symm.trans Nat.testBit_eq_decide_div_mod_eq

/-- Settles O45, by the value of bit 2. -/
theorem isBusyReportsBitTwo : Obligations.IsBusyReportsBitTwo := by
  refine ⟨decodeOfEncodeIsTheInstruction .rtcIsBusy, fun s st hr => ?_,
    fun s e hr => exec_read_frame_of_reply (exec_rtcIsBusy s) hr⟩
  rw [← busyFlag_eq]
  exact exec_read_frame_of_reply (exec_rtcIsBusy s) hr

end Sys2Proof.Machine
end

section
/-! PROOF of O41, O42 and O43. What RTC.SET_DATETIME writes, and what reading it back gives (spec/42_rtc.md R242, R244,
R248). -/

namespace Sys2Proof.Machine

/-! ## What the operation does -/

theorem dateTimeInRange_iff (d : DateTime) : dateTimeInRange d = true ↔
    2000 ≤ d.year ∧ d.year ≤ 2099 ∧ 1 ≤ d.month ∧ d.month ≤ 12 ∧ 1 ≤ d.day ∧ d.day ≤ 31 ∧
      d.hour ≤ 23 ∧ d.minute ≤ 59 ∧ d.second ≤ 59 :=
  decide_eq_true_iff

theorem exec_rtcSetDatetime_of_inRange {d : DateTime} (h : dateTimeInRange d = true) (s : State) :
    exec (.rtcSetDatetime d) s = .next
      ((s.memWrite regTime (timeBytes s.params.layout (Config.freeWeekday s.draws) d)).deliver
        (writeOutcome s.writeReply)) :=
  congrArg Host.Outcome.next (if_pos h)

theorem exec_rtcSetDatetime_of_not_inRange {d : DateTime} (h : ¬ dateTimeInRange d = true) (s : State) :
    exec (.rtcSetDatetime d) s = .next { s with
      refused := true
      outcomes := s.outcomes ++ [.refusedOperand 0x2200#16 (.datetimeRange d)] } :=
  congrArg Host.Outcome.next (if_neg h)

/-- Settles O41, by the two sides of the range check. -/
theorem setDatetimeWritesOrRefuses : Obligations.SetDatetimeWritesOrRefuses := by
  refine fun d s => ⟨decodeOfEncodeIsTheInstruction (.rtcSetDatetime d), fun hok => ?_, fun hok => ?_⟩
  · have hexec := exec_rtcSetDatetime_of_inRange ((dateTimeInRange_iff d).mpr hok) s
    refine ⟨Config.freeWeekday s.draws, _, hexec, ?_, rfl, rfl, s.sameDriver_memWrite_deliver _ _ _⟩
    simp only [← bcdEncode_eq]
    rfl
  · exact exec_rtcSetDatetime_of_not_inRange (mt (dateTimeInRange_iff d).mp hok) s

/-- If RTC.SET_DATETIME wrote anything, the date was in range and the bytes are those of the time block. -/
theorem timeBytes_of_written {d : DateTime} {s t : State} {a : BitVec 7} {r : WriteReply} {reg : Byte} {b : List Byte}
    (h : exec (.rtcSetDatetime d) s = .next t) (hhist : t.hist = s.hist ++ [.busW a (reg :: b) r]) :
    dateTimeInRange d = true ∧ b = timeBytes s.params.layout (Config.freeWeekday s.draws) d := by
  by_cases hok : dateTimeInRange d = true
  · rw [exec_rtcSetDatetime_of_inRange hok] at h
    cases h
    cases List.append_cancel_left hhist
    exact ⟨hok, rfl⟩
  · rw [exec_rtcSetDatetime_of_not_inRange hok] at h
    cases h
    simp at hhist

/-! ## Where a time block holds a date -/

/-- The bytes at the places of the six fields are the two digits of each (R227, R242). -/
def holdsDate (layout : RtcLayout) (b : List Byte) (d : DateTime) : Prop :=
  let ix := fieldIndex layout
  byteAt b ix.second = bcdEncode d.second ∧ byteAt b ix.minute = bcdEncode d.minute ∧
    byteAt b ix.hour = bcdEncode d.hour ∧ byteAt b ix.day = bcdEncode d.day ∧
    byteAt b ix.month = bcdEncode d.month ∧ byteAt b ix.year = bcdEncode (d.year - epoch)

theorem timeBytes_holdsDate (layout : RtcLayout) (weekday : Byte) (d : DateTime) :
    holdsDate layout (timeBytes layout weekday d) d := by
  cases layout <;> exact ⟨rfl, rfl, rfl, rfl, rfl, rfl⟩

/-- Under `DOC6` the seventh byte of a read holds no field. -/
theorem timeBytes_append_holdsDate (weekday x : Byte) (d : DateTime) :
    holdsDate .doc6 (timeBytes .doc6 weekday d ++ [x]) d := ⟨rfl, rfl, rfl, rfl, rfl, rfl⟩

/-- Under `DS3231_7` byte 3, the day of the week, holds no field. -/
theorem timeBytes_set_holdsDate (weekday x : Byte) (d : DateTime) :
    holdsDate .ds3231 ((timeBytes .ds3231 weekday d).set 3 x) d := ⟨rfl, rfl, rfl, rfl, rfl, rfl⟩

/-! ## Masks over the digits of a field -/

theorem bcdEncode_and_0x1F {n : Nat} (h : n ≤ 19) : bcdEncode n &&& 0x1F#8 = bcdEncode n :=
  Byte.and_lowMask (k := 5) rfl (by rw [bcdEncode_toNat (by omega)]; omega)

theorem bcdEncode_and_0x3F {n : Nat} (h : n ≤ 39) : bcdEncode n &&& 0x3F#8 = bcdEncode n :=
  Byte.and_lowMask (k := 6) rfl (by rw [bcdEncode_toNat (by omega)]; omega)

theorem bcdEncode_and_0x7F {n : Nat} (h : n ≤ 79) : bcdEncode n &&& 0x7F#8 = bcdEncode n :=
  Byte.and_lowMask (k := 7) rfl (by rw [bcdEncode_toNat (by omega)]; omega)

/-- Settles O42: each field in its range needs only the bits below its flag bits. -/
theorem writtenFlagBitsAreClear : Obligations.WrittenFlagBitsAreClear := by
  intro d s t a r reg b h hhist
  obtain ⟨hok, rfl⟩ := timeBytes_of_written h hhist
  obtain ⟨hs, hmi, hh, hd, hmo, -⟩ := timeBytes_holdsDate s.params.layout (Config.freeWeekday s.draws) d
  rw [dateTimeInRange_iff] at hok
  refine ⟨?hour, ?month, ?second, ?minute, ?day⟩
  case hour => rw [hh]; exact Byte.and_eq_zero_of_and_eq_self (bcdEncode_and_0x3F (by omega)) rfl
  case month => rw [hmo]; exact Byte.and_eq_zero_of_and_eq_self (bcdEncode_and_0x1F (by omega)) rfl
  case second => rw [hs]; exact Byte.and_eq_zero_of_and_eq_self (bcdEncode_and_0x7F (by omega)) rfl
  case minute => rw [hmi]; exact Byte.and_eq_zero_of_and_eq_self (bcdEncode_and_0x7F (by omega)) rfl
  case day => rw [hd]; exact Byte.and_eq_zero_of_and_eq_self (bcdEncode_and_0x3F (by omega)) rfl

/-! ## Reading a date back -/

theorem decField_bcdEncode {n : Nat} {mask : Byte} (h : n ≤ 99) (hmask : bcdEncode n &&& mask = bcdEncode n) :
    decField (bcdEncode n) mask = n := by
  rw [decField, hmask, bcdDecode_bcdEncode h]

/-- A field under the mask of all bits. -/
theorem decField_bcdEncode_0xFF {n : Nat} (h : n ≤ 99) : decField (bcdEncode n) 0xFF#8 = n :=
  decField_bcdEncode h (Byte.and_ones _)

/-- Under the default masks a block that holds a date in range decodes to it. -/
theorem decodeTime_of_holdsDate {p : Params} {b : List Byte} {d : DateTime} (hmasks : p.masks = defaultParams.masks)
    (hok : dateTimeInRange d = true) (hb : holdsDate p.layout b d) : decodeTime p b = d := by
  obtain ⟨hs, hmi, hh, hd, hmo, hy⟩ := hb
  rw [dateTimeInRange_iff] at hok
  have hsecond : decField (bcdEncode d.second) 0xFF#8 = d.second := decField_bcdEncode_0xFF (by omega)
  have hminute : decField (bcdEncode d.minute) 0xFF#8 = d.minute := decField_bcdEncode_0xFF (by omega)
  have hhour : decField (bcdEncode d.hour) 0x3F#8 = d.hour :=
    decField_bcdEncode (by omega) (bcdEncode_and_0x3F (by omega))
  have hday : decField (bcdEncode d.day) 0xFF#8 = d.day := decField_bcdEncode_0xFF (by omega)
  have hmonth : decField (bcdEncode d.month) 0x7F#8 = d.month :=
    decField_bcdEncode (by omega) (bcdEncode_and_0x7F (by omega))
  have hyear : epoch + decField (bcdEncode (d.year - epoch)) 0xFF#8 = d.year := by
    rw [epoch, decField_bcdEncode_0xFF (by omega)]
    omega
  simp [decodeTime, hs, hmi, hh, hd, hmo, hy, hmasks, defaultParams, defaultMasks, hsecond, hminute, hhour, hday,
    hmonth, hyear]

/-- Settles O43: the block read still holds the date, which decodes to itself. -/
theorem setThenGetGivesTheDateBack : Obligations.SetThenGetGivesTheDateBack := by
  intro d s t a r reg x b h hhist hmasks s' rest hparams hbus
  obtain ⟨hok, rfl⟩ := timeBytes_of_written h hhist
  have hread {b' : List Byte} (hb' : s'.bus = .ok b' :: rest) (hlen : b'.length = 7)
      (hholds : holdsDate s.params.layout b' d) : ∃ t', exec .rtcGetDatetime s' = .next t' ∧
        t'.outcomes = s'.outcomes ++ [.ok (.dateTime d)] := by
    obtain ⟨t', ht', -, hout, -⟩ := exec_read_frame_of_reply (exec_rtcGetDatetime s') (s'.readReply_ok hb' hlen)
    refine ⟨t', ht', hout.trans ?_⟩
    rw [readOutcome, hparams, decodeTime_of_holdsDate hmasks hok hholds]
  cases hl : s.params.layout with
  | doc6 =>
    rw [hl] at hbus hread
    exact hread hbus rfl (timeBytes_append_holdsDate _ x d)
  | ds3231 =>
    rw [hl] at hbus hread
    exact hread hbus rfl (timeBytes_set_holdsDate _ x d)

end Sys2Proof.Machine
end

section
/-! PROOF of O46. One transaction for each RTC operation (spec/42_rtc.md R247). -/

namespace Sys2Proof.Machine

/-- Settles O46: four operations are one read each, and RTC.SET_DATETIME is one write or a refusal. -/
theorem oneTransactionPerRtcOperation : Obligations.OneTransactionPerRtcOperation := by
  intro i s hi
  cases i with
  | rtcInit | rtcGetDatetime | rtcGetTemperature | rtcIsBusy => exact ⟨_, rfl, _, rfl, rfl, rfl⟩
  | rtcSetDatetime d =>
    have hwf : (Instr.rtcSetDatetime d).wellFormed = dateTimeInRange d := rfl
    by_cases hok : dateTimeInRange d = true
    · refine ⟨_, exec_rtcSetDatetime_of_inRange hok s, ?_⟩
      rw [hwf, if_pos hok]
      exact ⟨_, rfl, rfl, rfl⟩
    · refine ⟨_, exec_rtcSetDatetime_of_not_inRange hok s, ?_⟩
      rw [hwf, if_neg hok]
      exact ⟨rfl, rfl⟩
  | segEncode | srInit | srPushByte | srPushBytes | srTransfer | srPushByteAndTransfer | srPushBytesAndTransfer
  | srSetOutputs | srClearOutputs | srSetAllOutputs | bcdDec | bcdEnc => simp [isRtc] at hi

end Sys2Proof.Machine
end

section
/-! PROOF of O8, O22 and O31. An undecodable call, an overlapping SR call, and a cancellation (spec/60_exceptions.md
R276, R277, R280). -/

namespace Sys2Proof.Machine

/-- Settles O8: a step at such a call is the refusal of it. -/
theorem undecodableCallIsRefused : Obligations.UndecodableCallIsRefused := by
  intro s w oob rest why hh hd
  have hstep : step s = .next (s.popHost.refuse (refusalOutcome w oob why)) := by
    simp [step, agentStep, present, hh, hd]
  rw [hstep, State.popHost_eq hh]
  cases why <;> rfl

/-- Settles O22: the concurrency check comes first, and the fault bits are the SR driver's. -/
theorem overlappingSrCallFaults : Obligations.OverlappingSrCallFaults := by
  refine ⟨fun i s hi hpc => ?_, fun i s t hi hexec => ?_⟩
  · obtain ⟨op, bytes, hstart⟩ := exec_isSr hi s
    rw [hstart, srStart, if_pos hpc]
    rfl
  · obtain ⟨-, -, -, -, -, -, -, -, hfaults, -⟩ := exec_sameDriver hi hexec
    exact hfaults

/-- Settles O31, by all that a cancellation does, and by what the other units leave alone. -/
theorem cancelStopsAtTheSuspensionPoint : Obligations.CancelStopsAtTheSuspensionPoint := by
  refine ⟨fun s hpc => ?_, fun s => s.cancelSr_idle, fun i s t hi hexec => ?_⟩
  · simp [s.cancelSr_eq hpc]
  · obtain ⟨-, -, -, hpc, -⟩ := exec_sameDriver hi hexec
    exact hpc

end Sys2Proof.Machine
end

section
/-! PROOF of O52. Under the invariant the sequencer's fault is out of reach (log 14). -/

namespace Sys2Proof.Machine

/-- Under the invariant a position S_HIGH has its byte and its operation, so the end of a delay has a meaning. -/
theorem State.Inv.srResume_next {s : State} (h : s.Inv) : ∃ t, srResume s = .next t := by
  rcases srResume_cases s rfl with ⟨-, ht⟩ | ⟨-, ht⟩ | ⟨j, i, -, ht⟩ | ⟨j, i, v, op, -, -, -, ht⟩ |
    ⟨j, i, hpc, hnone, -⟩ | ⟨-, ht⟩
  case inr.inr.inr.inr.inl =>
    obtain ⟨-, ⟨op, hop, -⟩, v, hv, -⟩ := h.atBit_of_sHigh hpc
    simp [hop, hv] at hnone
  all_goals exact ⟨_, ht⟩

/-- Settles O52: of all moves only the end of a delay could stop, and under the invariant it does not. -/
theorem noStepStopsUnderTheInvariant : Obligations.NoStepStopsUnderTheInvariant := by
  intro s h
  rcases step_cases (s := s) rfl with ⟨w, oob, rest, i, -, -, ht⟩ | ⟨w, oob, rest, why, -, -, ht⟩ | ⟨rest, -, ht⟩ |
    ⟨rest, -, ht⟩ | ⟨rest, -, -, ht⟩ | ⟨rest, -, -, ht⟩ | ⟨-, ht⟩
  · exact ht ▸ exec_next i s.popHost
  · exact ⟨_, ht⟩
  · exact ⟨_, ht⟩
  · exact ht ▸ h.popHost.srResume_next
  · exact ⟨_, ht⟩
  · exact ht ▸ h.srResume_next
  · exact ht ▸ h.srResume_next

end Sys2Proof.Machine
end

section
/-! PROOF of O32. Where a push stands when it is cancelled (spec/60_exceptions.md R281). -/

namespace Sys2Proof.Machine

/-! ## How a bit ends -/

/-- The end of a bit first moves only the wires; then the next bit is set up, or the push is over. -/
theorem State.bitEnd_cases (s : State) (j : Nat) (i : Fin 8) (v : Byte) (op : SrOp) : ∃ w : State, s.sameButWires w ∧
    ((∃ j' i' v', s.bitEnd j i v op = w.dataSetup j' i' v') ∨ s.bitEnd j i v op = w.afterPush op) := by
  have hlow : s.sameButWires (s.driveLow .clk) := by simp [State.sameButWires]
  have hrest := State.sameButWires_trans hlow (s.driveLow .clk).dataRest_sameButWires
  unfold State.bitEnd
  split
  case isTrue => exact ⟨_, hlow, .inl ⟨_, _, _, rfl⟩⟩
  case isFalse =>
    cases hv : (s.driveLow .clk).srBytes[j + 1]? with
    | some v' => exact ⟨_, hrest, .inl ⟨_, _, _, State.byteEnd_of_some hv⟩⟩
    | none => exact ⟨_, hrest, .inr (State.byteEnd_of_none hv)⟩

/-! ## The pulse held at each position -/

/-- On an initialised unit: which line a push of `op` holds high at each position, and that only a latching form comes
to S_LATCH. -/
def State.holdsPulse (op : SrOp) (s : State) : Prop :=
  s.srReady = true ∧ match s.srPc with
    | .idle => True
    | .sInit => False
    | .sSetup _ _ => s.srOp = some op
    | .sHigh _ _ => s.srOp = some op ∧ s.lines.clk = .one
    | .sLatch => op.latches = true ∧ s.lines.latch = .one

section
variable {op : SrOp} {s : State}

theorem State.holdsPulse.not_sInit (h : s.holdsPulse op) : s.srPc ≠ .sInit := by
  intro hpc
  simp [State.holdsPulse, hpc] at h

theorem State.holdsPulse.op_of_sSetup {j : Nat} {i : Fin 8} (h : s.holdsPulse op) (hpc : s.srPc = .sSetup j i) :
    s.srOp = some op := by
  simp only [State.holdsPulse, hpc] at h
  exact h.2

theorem State.holdsPulse.of_sHigh {j : Nat} {i : Fin 8} (h : s.holdsPulse op) (hpc : s.srPc = .sHigh j i) :
    s.srOp = some op ∧ s.lines.clk = .one := by
  simp only [State.holdsPulse, hpc] at h
  exact h.2

theorem State.holdsPulse.of_sLatch (h : s.holdsPulse op) (hpc : s.srPc = .sLatch) :
    op.latches = true ∧ s.lines.latch = .one := by
  simp only [State.holdsPulse, hpc] at h
  exact h.2

theorem State.holdsPulse.dataSetup (hready : s.srReady = true) (hop : s.srOp = some op) (j : Nat) (i : Fin 8)
    (v : Byte) : (s.dataSetup j i v).holdsPulse op := by
  rw [State.dataSetup_eq]
  exact ⟨hready, hop⟩

theorem State.holdsPulse.afterPush (hready : s.srReady = true) : (s.afterPush op).holdsPulse op := by
  rcases s.afterPush_cases op with ⟨hlat, ha⟩ | ⟨-, ha⟩ <;> rw [ha]
  · rw [State.latchUp_eq]
    exact ⟨hready, hlat, rfl⟩
  · exact ⟨hready, trivial⟩

theorem State.holdsPulse.pushStart (hready : s.srReady = true) (op : SrOp) (bytes : List Byte) :
    (s.pushStart op bytes).holdsPulse op := by
  cases bytes with
  | nil => exact .afterPush hready
  | cons v vs =>
    have hbegin : (s.begin op (v :: vs)).srReady = true := hready
    exact .dataSetup hbegin rfl 0 7 v

theorem State.holdsPulse.srResume {t : State} (h : s.holdsPulse op) (hst : srResume s = .next t) :
    t.holdsPulse op := by
  obtain ⟨hready, -⟩ := id h
  rcases srResume_cases s hst with ⟨-, ht⟩ | ⟨hpc, ht⟩ | ⟨j, i, hpc, ht⟩ | ⟨j, i, v, op', hpc, -, hop', ht⟩ |
    ⟨j, i, -, -, ht⟩ | ⟨-, ht⟩ <;> cases ht
  · exact h
  · exact absurd hpc h.not_sInit
  · rw [State.clockUp_eq]
    exact ⟨hready, h.op_of_sSetup hpc, rfl⟩
  · obtain ⟨hop, -⟩ := h.of_sHigh hpc
    obtain rfl : op = op' := by simpa [hop] using hop'
    obtain ⟨w, ⟨-, hreadyW, hopW, -⟩, ⟨j', i', v', hw⟩ | hw⟩ := s.bitEnd_cases j i v op <;> rw [hw]
    · exact .dataSetup (hreadyW.trans hready) (hopW.trans hop) j' i' v'
    · exact .afterPush (hreadyW.trans hready)
  · exact ⟨hready, trivial⟩

end

/-! ## The chain and DATA at each position -/

section
variable {c s : State} {op : SrOp}

theorem State.Pushing.of_sSetup {j : Nat} {i : Fin 8} (h : c.Pushing op s) (hpc : s.srPc = .sSetup j i) :
    c.Clocked ((serialBits c.srBytes).take (8 * j + (7 - i))) s ∧ s.lines.clk = .zero := by
  cases h with
  | atSetup hpc' _ clocked hclk =>
    cases hpc.symm.trans hpc'
    exact ⟨clocked, hclk⟩
  | atHigh hpc' | atLatch hpc' | returned hpc' => cases hpc.symm.trans hpc'

theorem State.Pushing.of_sHigh {j : Nat} {i : Fin 8} (h : c.Pushing op s) (hpc : s.srPc = .sHigh j i) :
    c.Clocked ((serialBits c.srBytes).take (8 * j + (7 - i) + 1)) s := by
  cases h with
  | atHigh hpc' _ clocked =>
    cases hpc.symm.trans hpc'
    exact clocked
  | atSetup hpc' | atLatch hpc' | returned hpc' => cases hpc.symm.trans hpc'

theorem State.Pushing.of_sLatch (h : c.Pushing op s) (hpc : s.srPc = .sLatch) :
    s.lines.clk = .zero ∧ c.ChainPushed op s := by
  cases h with
  | atLatch _ hclk pushed => exact ⟨hclk, pushed⟩
  | atSetup hpc' | atHigh hpc' | returned hpc' => cases hpc.symm.trans hpc'

theorem State.DataFits.of_bit {bytes : List Byte} {d : Level} {j : Nat} {i : Fin 8} (h : s.DataFits bytes d)
    (hpc : s.srPc = .sSetup j i ∨ s.srPc = .sHigh j i) :
    (bytes[j]?.map fun v => Level.ofBool (v.getLsbD i)) = some s.lines.data := by
  cases h with
  | @atBit j' i' _ hpc' _ hv hdata =>
    obtain ⟨rfl, rfl⟩ : j = j' ∧ i = i' := by rcases hpc with hpc | hpc <;> simpa [hpc] using hpc'
    rw [hv, hdata]
    rfl
  | ended hpc' => rcases hpc with hpc | hpc <;> simp [hpc] at hpc'

theorem State.DataFits.of_sLatch {bytes : List Byte} {d : Level} (h : s.DataFits bytes d) (hpc : s.srPc = .sLatch) :
    dataRestsAt bytes d s.lines.data := by
  cases h with
  | atBit hpc' => simp [hpc] at hpc'
  | ended _ hdata => exact hdata

end

/-! ## What a cancellation leaves at any position -/

theorem State.cancelSr_lines (s : State) : s.cancelSr.lines = s.lines := by
  unfold State.cancelSr
  split <;> rfl

theorem State.cancelSr_shift (s : State) : s.cancelSr.shift = s.shift := by
  unfold State.cancelSr
  split <;> rfl

theorem State.cancelSr_srReady (s : State) : s.cancelSr.srReady = s.srReady := by
  unfold State.cancelSr
  split <;> rfl

/-- A push form presented at rest keeps, through any number of ended delays, where the chain, the pulses and DATA
stand. -/
theorem exec_pushForm_stands {i : Instr} {op : SrOp} {bytes : List Byte} {s t u : State} {k : Nat}
    (hform : pushForm i = some (op, bytes)) (husable : s.srUsable) (hrest : s.atRest)
    (hlength : s.shift.length = 8 * s.params.nChips) (hexec : exec i s = .next t)
    (hrun : srResumeTimes k t = .next u) :
    (s.begin op bytes).Pushing op u ∧ u.holdsPulse op ∧ u.DataFits bytes s.lines.data := by
  obtain rfl : s.pushStart op bytes = t := by simpa [exec_pushForm_usable hform husable] using hexec
  refine ⟨?_, ?_, ?_⟩
  · exact srResumeTimes_keeps (fun _ _ h hst => h.srResume rfl hst) (.pushStart hrest hlength op bytes) hrun
  · exact srResumeTimes_keeps (fun _ _ h hst => h.srResume hst) (.pushStart husable.2 op bytes) hrun
  · exact srResumeTimes_keeps (fun _ _ h hst => h.srResume hst) (.pushStart op bytes) hrun

/-- Settles O32: a cancellation leaves lines, chain and `sr_ready` as they stand at its position. -/
theorem stateLeftByCancellation : Obligations.StateLeftByCancellation := by
  refine ⟨fun i op bytes s t u k hform husable hrest hlength hexec hrun => ?_, fun s t hpc hexec => ?_⟩
  · obtain ⟨hpush, hpulse, hdata⟩ := exec_pushForm_stands hform husable hrest hlength hexec hrun
    obtain ⟨hready, -⟩ := id hpulse
    simp only [State.cancelSr_lines, State.cancelSr_shift, State.cancelSr_store, State.cancelSr_srReady]
    cases hpc : u.srPc with
    | idle => trivial
    | sInit => exact absurd hpc hpulse.not_sInit
    | sSetup j b =>
      obtain ⟨clocked, hclk⟩ := hpush.of_sSetup hpc
      exact ⟨hclk, clocked.latch, hdata.of_bit (.inl hpc), clocked.shift, clocked.store, hready⟩
    | sHigh j b =>
      have clocked := hpush.of_sHigh hpc
      obtain ⟨-, hclk⟩ := hpulse.of_sHigh hpc
      rw [show 8 * j + (7 - b.val) + 1 = 8 * j + (8 - b.val) by omega] at clocked
      exact ⟨hclk, clocked.latch, hdata.of_bit (.inr hpc), clocked.shift, clocked.store, hready⟩
    | sLatch =>
      obtain ⟨hclk, pushed⟩ := hpush.of_sLatch hpc
      obtain ⟨hlat, hlatch⟩ := hpulse.of_sLatch hpc
      have hstored : u.store = u.shift := pushed.store.trans (if_pos hlat)
      rw [List.take_of_length_le (serialBits_length bytes).le]
      exact ⟨hclk, hlatch, pushed.shift, hstored, hready, hdata.of_sLatch hpc⟩
  · obtain rfl : s.initStart = t := by simpa [exec_srInit_of_idle hpc] using hexec
    rw [State.cancelSr_lines, State.cancelSr_shift, State.cancelSr_store, State.cancelSr_srReady, State.initStart_eq]
    exact ⟨rfl, rfl, rfl, rfl⟩

end Sys2Proof.Machine
end

section
/-! PROOF of O54. Who makes which events, and who reports a bus error (spec/60_exceptions.md R272, R273, R285). -/

namespace Sys2Proof.Machine

/-! ## The SR unit reports no bus error -/

/-- From `s` to `t` nothing is reported that is a bus error. -/
def State.reportsNoBusError (s t : State) : Prop :=
  ∃ o : List OpOutcome, t.outcomes = s.outcomes ++ o ∧ ∀ e : BusError, .bus e ∉ o

section
variable {s t : State}

theorem State.reportsNoBusError_of_eq (h : t.outcomes = s.outcomes) : s.reportsNoBusError t := ⟨[], by simp [h]⟩

theorem State.reportsNoBusError_of_append {r : OpOutcome} (h : t.outcomes = s.outcomes ++ [r])
    (hr : ∀ e, r ≠ .bus e) : s.reportsNoBusError t :=
  ⟨[r], h, fun e he => hr e (List.mem_singleton.mp he).symm⟩

theorem State.dataSetup_reportsNoBusError (s : State) (j : Nat) (i : Fin 8) (v : Byte) :
    s.reportsNoBusError (s.dataSetup j i v) :=
  State.reportsNoBusError_of_eq (by rw [State.dataSetup_eq])

theorem State.afterPush_reportsNoBusError (s : State) (op : SrOp) : s.reportsNoBusError (s.afterPush op) := by
  rcases s.afterPush_cases op with ⟨-, ha⟩ | ⟨-, ha⟩ <;> rw [ha]
  · exact State.reportsNoBusError_of_eq (by rw [State.latchUp_eq])
  · exact State.reportsNoBusError_of_append rfl (by simp)

theorem State.bitEnd_reportsNoBusError (s : State) (j : Nat) (i : Fin 8) (v : Byte) (op : SrOp) :
    s.reportsNoBusError (s.bitEnd j i v op) := by
  obtain ⟨w, ⟨-, -, -, -, -, -, hout, -⟩, ⟨j', i', v', hw⟩ | hw⟩ := s.bitEnd_cases j i v op <;>
    rw [hw, State.reportsNoBusError, ← hout]
  · exact w.dataSetup_reportsNoBusError j' i' v'
  · exact w.afterPush_reportsNoBusError op

theorem State.pushStart_reportsNoBusError (s : State) (op : SrOp) (bytes : List Byte) :
    s.reportsNoBusError (s.pushStart op bytes) := by
  cases bytes with
  | nil => exact (s.begin op []).afterPush_reportsNoBusError op
  | cons v vs => exact (s.begin op (v :: vs)).dataSetup_reportsNoBusError 0 7 v

theorem srResume_reportsNoBusError (h : srResume s = .next t) : s.reportsNoBusError t := by
  rcases srResume_cases s h with ⟨-, ht⟩ | ⟨-, ht⟩ | ⟨j, i, -, ht⟩ | ⟨j, i, v, op, -, -, -, ht⟩ |
    ⟨j, i, -, -, ht⟩ | ⟨-, ht⟩ <;> cases ht
  · exact State.reportsNoBusError_of_eq rfl
  · exact State.reportsNoBusError_of_append rfl (by simp)
  · exact State.reportsNoBusError_of_eq (by rw [State.clockUp_eq])
  · exact s.bitEnd_reportsNoBusError j i v op
  · exact State.reportsNoBusError_of_append rfl (by simp)

theorem srStart_reportsNoBusError {i : Instr} {op : SrOp} {bytes : List Byte} (h : srStart i op bytes s = .next t) :
    s.reportsNoBusError t := by
  rcases srStart_cases s h with ⟨-, ht⟩ | ⟨-, -, ht⟩ | ⟨-, -, -, ht⟩ | ⟨-, -, -, ht⟩ <;> cases ht
  · exact State.reportsNoBusError_of_append rfl (by simp)
  · exact State.reportsNoBusError_of_eq (by rw [State.initStart_eq])
  · exact State.reportsNoBusError_of_append rfl (by simp)
  · exact s.pushStart_reportsNoBusError op bytes

end

/-! ## What an operation adds is its own unit's -/

/-- From `s` to `t` operation `i` adds only events that its unit makes, and reports a bus error only if it hands one
on. -/
def State.addsOwn (i : Instr) (s t : State) : Prop :=
  ∃ (evs : List Event) (o : List OpOutcome), t.hist = s.hist ++ evs ∧ t.outcomes = s.outcomes ++ o ∧
    (∀ e ∈ evs, (isSrEvent e = true ∧ isSr i = true) ∨ (isBusEvent e = true ∧ isRtc i = true)) ∧
    ∀ e : BusError, .bus e ∈ o → isRtc i = true ∧ i ≠ .rtcInit

section
variable {i : Instr} {s t : State}

theorem State.addsOwn_of_sr (hi : isSr i = true) (hrec : s.recordsSr t) (hrep : s.reportsNoBusError t) :
    s.addsOwn i t := by
  obtain ⟨evs, hhist, hevs⟩ := hrec
  obtain ⟨o, hout, ho⟩ := hrep
  exact ⟨evs, o, hhist, hout, fun e he => .inl ⟨hevs e he, hi⟩, fun e he => absurd he (ho e)⟩

/-- An operation that makes no event and reports no bus error, as a refusal does, adds nothing that needs an owner. -/
theorem State.addsOwn_of_report {r : OpOutcome} (hhist : t.hist = s.hist) (hout : t.outcomes = s.outcomes ++ [r])
    (hr : ∀ e, r ≠ .bus e) : s.addsOwn i t :=
  ⟨[], [r], by simp [hhist], hout, by simp, fun e he => absurd (List.mem_singleton.mp he).symm (hr e)⟩

theorem State.addsOwn_of_transaction {ev : Event} {r : OpOutcome} (hi : isRtc i = true)
    (hhist : t.hist = s.hist ++ [ev]) (hev : isBusEvent ev = true) (hout : t.outcomes = s.outcomes ++ [r])
    (hr : ∀ e, r = .bus e → i ≠ .rtcInit) : s.addsOwn i t :=
  ⟨[ev], [r], hhist, hout, fun _ he => .inr ⟨List.mem_singleton.mp he ▸ hev, hi⟩,
    fun e he => ⟨hi, hr e (List.mem_singleton.mp he).symm⟩⟩

/-- RTC.INIT reports a failed read as a result (42_rtc.md R230). -/
theorem probeOutcome_ne_bus (r : ReadReply) (e : BusError) : probeOutcome r ≠ .bus e := by
  cases r <;> simp [probeOutcome]

theorem exec_addsOwn (h : exec i s = .next t) : s.addsOwn i t := by
  cases hi : isSr i with
  | true =>
    obtain ⟨op, bytes, he⟩ := exec_isSr hi s
    have hstart : srStart i op bytes s = .next t := he ▸ h
    exact State.addsOwn_of_sr hi (srStart_recordsSr hstart) (srStart_reportsNoBusError hstart)
  | false =>
    cases i with
    | segEncode | bcdDec => cases h; exact State.addsOwn_of_report rfl rfl (by simp)
    | bcdEnc => cases h; split <;> exact State.addsOwn_of_report rfl rfl (by simp)
    | rtcInit =>
      cases h
      exact State.addsOwn_of_transaction rfl rfl rfl rfl fun e he => absurd he (probeOutcome_ne_bus _ e)
    | rtcGetDatetime | rtcGetTemperature | rtcIsBusy =>
      cases h; exact State.addsOwn_of_transaction rfl rfl rfl rfl (by simp)
    | rtcSetDatetime =>
      cases h
      split
      · exact State.addsOwn_of_transaction rfl rfl rfl rfl (by simp)
      · exact State.addsOwn_of_report rfl rfl (by simp)
    | srInit | srPushByte | srPushBytes | srTransfer | srPushByteAndTransfer | srPushBytesAndTransfer | srSetOutputs
    | srClearOutputs | srSetAllOutputs => simp [isSr, pushForm] at hi

end

/-- Settles O54: every operation adds only its own unit's events and reports, and so does the sequencer. -/
theorem onlyOwnersUseLinesAndBus : Obligations.OnlyOwnersUseLinesAndBus := by
  refine ⟨fun i s t h => exec_addsOwn h, fun s t h => ?_⟩
  obtain ⟨evs, hhist, hevs⟩ := srResume_recordsSr h
  obtain ⟨o, hout, ho⟩ := srResume_reportsNoBusError h
  exact ⟨evs, o, hhist, hevs, hout, ho⟩

end Sys2Proof.Machine
end

section
/-! PROOF of O24. Edges lost on a line that a cancellation left high (spec/70_reset_and_hazards.md R314). -/

namespace Sys2Proof.Machine

/-- STORE needs a rise of LATCH to change, and a LATCH at 1 cannot rise. -/
theorem State.storesByLatch.store_eq {s t : State} (h : s.storesByLatch t) (hone : s.lines.latch = .one) :
    t.store = s.store := by
  by_contra hne
  obtain ⟨hrise, -⟩ := h hne
  exact hrise hone

/-- Settles O24: a write of 1 over 1 is no edge, so the chain keeps what it holds. -/
theorem lineLeftHighLosesTheNextEdge : Obligations.LineLeftHighLosesTheNextEdge := by
  refine ⟨fun s t j i hpc hone hst => ?_, fun s t husable hone hexec => ?_, fun s t _ _ _ hone hst => ?_⟩
  · obtain rfl : (s.driveHigh .clk).suspend .high (.sHigh j i) = t := by simpa [srResume, hpc] using hst
    rw [State.clockUp_eq]
    simp [hone]
  · have hstore : t.store = s.store := (exec_storesByLatch hexec).store_eq hone
    have hstart : exec .srTransfer s = .next (s.begin .transfer []).latchUp :=
      exec_pushForm_usable (op := .transfer) (bytes := []) rfl husable
    obtain rfl : (s.begin .transfer []).latchUp = t := by simpa [hstart] using hexec
    rw [State.latchUp_eq] at hstore ⊢
    exact ⟨rfl, hstore, rfl⟩
  · exact (srResume_storesByLatch hst).store_eq hone

end Sys2Proof.Machine
end

section
/-! PROOF of O35. Unknown bits after a push as long as the chain (spec/70_reset_and_hazards.md R311). -/

namespace Sys2Proof.Machine

/-- At least as many bits as the chain holds push the whole old content out, and a bit pushed is never unknown. -/
theorem shiftedBits_known {n : Nat} {bits : List Bool} (hfull : 8 * n ≤ bits.length) (shift : List Level) :
    ∀ b ∈ shiftedBits n bits shift, b ≠ .x := by
  intro b hb
  rw [shiftedBits, List.take_append_of_le_length (by simpa using hfull)] at hb
  obtain ⟨bit, -, rfl⟩ := List.mem_map.mp (List.mem_of_mem_take hb)
  exact Level.ofBool_ne_x bit

/-- Settles O35: the latch copies a shift stage that holds pushed bits only. -/
theorem fullChainIsKnownAfterTheLatch : Obligations.FullChainIsKnownAfterTheLatch := by
  intro i op bytes s hform husable hrest hlength hlat hfull
  obtain ⟨t, u, hexec, hrun, -, hshift, hstore⟩ := exec_pushForm_moves_chain hform husable hrest hlength
  have hbits : 8 * s.params.nChips ≤ (serialBits bytes).length := by rw [serialBits_length]; omega
  have hpushed : u.store = shiftedBits s.params.nChips (serialBits bytes) s.shift := by rw [hstore, if_pos hlat, hshift]
  exact ⟨t, u, hexec, hrun, hpushed ▸ shiftedBits_known hbits s.shift⟩

end Sys2Proof.Machine
end
